-- ==== Sys2Proof/Word.lean ====
section
/-! DEFINITION. The word types of the block: the 32-bit word of the command port, a binary32 value
(its bit pattern), a byte and a 16-bit sample (00_scope.md R8, R9; 20_memory.md R60). -/

namespace Sys2Proof

/-- A 32-bit word of the command port or of the CSR space (R8, R60). -/
abbrev Word := BitVec 32

/-- A `b32` value, held as its IEEE 754 binary32 bit pattern (R9, R62). -/
abbrev B32 := BitVec 32

/-- A byte of the output frame buffer (R61). -/
abbrev Byte := BitVec 8

/-- A two's-complement 16-bit output sample (R31). -/
abbrev Sample := BitVec 16

/-- The `b32` value `+0.0`. -/
abbrev zero32 : B32 := 0x00000000#32

/-- The `b32` value `1.0`. -/
abbrev one32 : B32 := 0x3F800000#32

end Sys2Proof
end

