-- ==== Sys2Proof/Syntax.lean ====
section
/-! DEFINITION. The commands of the block: one constructor for each row of the opcode map
(30_encoding.md R84), its fields (R80, R82) and operand words (R81) as arguments. -/

namespace Sys2Proof

/-- The `CH` sub-field of `TRK_WR` (R82): 0 is left, 1 is right. -/
inductive Channel where
  | left | right
  deriving DecidableEq, Repr

/-- The `SEG` sub-field of `ADSR_SET` (R82): 0 is the attack line, 1 is the release line. -/
inductive Segment where
  | attack | release
  deriving DecidableEq, Repr

/-- A command with its fields. Instance, handle and track arguments are the 8-bit `IDX` field. -/
inductive Instr where
  /-- `GEN_REG` (R113): `TYPE` and the frequency. -/
  | genReg (type : BitVec 2) (freq : B32)
  /-- `GEN_REL` (R114): the handle. -/
  | genRel (h : BitVec 8)
  /-- `GEN_ADV` (R115). -/
  | genAdv
  /-- `GEN_RD` (R116): the handle. -/
  | genRd (h : BitVec 8)
  /-- `DLY_APPLY` (R141). -/
  | dlyApply (i : BitVec 8) (sample delay feedback : B32)
  /-- `RVB_CFG` (R162). -/
  | rvbCfg (i : BitVec 8) (wet decay room cutoff predelay : B32)
  /-- `RVB_APPLY` (R163). -/
  | rvbApply (i : BitVec 8) (sample : B32)
  /-- `FFT_IN` (R185). -/
  | fftIn (i : BitVec 8) (sample : B32)
  /-- `FFT_OUT` (R186). -/
  | fftOut (i : BitVec 8)
  /-- `FFT_SHIFT` (R187). -/
  | fftShift (i : BitVec 8) (factor : B32)
  /-- `LINE_SET` (R223): length in seconds, start and end. -/
  | lineSet (j : BitVec 8) (len start stop : B32)
  /-- `LINE_RST` (R225). -/
  | lineRst (j : BitVec 8)
  /-- `LINE_ADV` (R224). -/
  | lineAdv (j : BitVec 8)
  /-- `ADSR_SET` (R226): the segment, length in seconds, start and end. -/
  | adsrSet (e : BitVec 8) (seg : Segment) (len start stop : B32)
  /-- `ADSR_RST` (R227). -/
  | adsrRst (e : BitVec 8)
  /-- `ADSR_ADV` (R228): the trigger. -/
  | adsrAdv (e : BitVec 8) (trig : Bool)
  /-- `MIX` (R229). -/
  | mix (a b t : B32)
  /-- `CLAMP` (R230). -/
  | clamp (x lo hi : B32)
  /-- `TRK_WR` (R260): the track, the sample index `K`, the channel and the value. -/
  | trkWr (t : BitVec 8) (k : BitVec 11) (ch : Channel) (value : B32)
  /-- `MIX_PERIOD` (R262). -/
  | mixPeriod
  /-- `OUT_RD` (R263): the sample index `K`. -/
  | outRd (k : BitVec 11)
  /-- `CSR_RD` (R280): the address and the instance. -/
  | csrRd (addr : BitVec 12) (i : BitVec 8)
  /-- `CSR_WR` (R281): the address, the instance and the value, a `u32`. -/
  | csrWr (addr : BitVec 12) (i : BitVec 8) (value : Word)
  deriving DecidableEq, Repr

end Sys2Proof
end

