-- ==== Sys2Proof/Decode.lean ====
section
/-! DEFINITION. Decoding and encoding (30_encoding.md R80 to R87): the opcode table R84, the framing of a
command in the stream (R87), the decoder (R85 steps 1 to 3), and the encoder. -/

namespace Sys2Proof

/-- Why the decoder rejects a command (R85 steps 1 to 3). The block answers `ILLEGAL` for each. -/
inductive DecodeError where
  /-- Step 1: `OPC` is not in R84. -/
  | unknownOpcode
  /-- Step 2: `LEN` differs from the opcode's. -/
  | wrongLength
  /-- Step 3: a field that must be 0 is not (`IDX`, or a reserved `IMM` bit). -/
  | reservedField
  deriving DecidableEq, Repr

/-- `W0[7:0]` (R80). -/
def fieldOpc (w : Word) : BitVec 8 := w.extractLsb' 0 8

/-- `W0[15:8]` (R80). -/
def fieldIdx (w : Word) : BitVec 8 := w.extractLsb' 8 8

/-- `W0[27:16]` (R80). -/
def fieldImm (w : Word) : BitVec 12 := w.extractLsb' 16 12

/-- `W0[31:28]` (R80). -/
def fieldLen (w : Word) : BitVec 4 := w.extractLsb' 28 4

/-- `W0 = LEN ++ IMM ++ IDX ++ OPC` (R80). -/
def packW0 (len : BitVec 4) (imm : BitVec 12) (idx opc : BitVec 8) : Word := len ++ imm ++ idx ++ opc

/-- A row of the opcode map (R84): opcode, operand count, whether `IDX` must be 0, the `IMM` bits that
may be set (R82), and the response's data word count. -/
structure OpRow where
  opc : BitVec 8
  len : BitVec 4
  idxZero : Bool
  immMask : BitVec 12
  rlen : Nat
  deriving DecidableEq, Repr

/-- The opcode map of R84 with the sub-fields of R82. -/
def opTable : List OpRow :=
  [ ⟨0x01#8, 1#4, true, 0x003#12, 1⟩    -- GEN_REG
  , ⟨0x02#8, 0#4, false, 0x000#12, 0⟩   -- GEN_REL
  , ⟨0x03#8, 0#4, true, 0x000#12, 0⟩    -- GEN_ADV
  , ⟨0x04#8, 0#4, false, 0x000#12, 1⟩   -- GEN_RD
  , ⟨0x10#8, 3#4, false, 0x000#12, 1⟩   -- DLY_APPLY
  , ⟨0x20#8, 5#4, false, 0x000#12, 0⟩   -- RVB_CFG
  , ⟨0x21#8, 1#4, false, 0x000#12, 1⟩   -- RVB_APPLY
  , ⟨0x30#8, 1#4, false, 0x000#12, 1⟩   -- FFT_IN
  , ⟨0x31#8, 0#4, false, 0x000#12, 1⟩   -- FFT_OUT
  , ⟨0x32#8, 1#4, false, 0x000#12, 0⟩   -- FFT_SHIFT
  , ⟨0x40#8, 3#4, false, 0x000#12, 0⟩   -- LINE_SET
  , ⟨0x41#8, 0#4, false, 0x000#12, 0⟩ ] -- LINE_RST
  ++
  [ ⟨0x42#8, 0#4, false, 0x000#12, 2⟩   -- LINE_ADV
  , ⟨0x48#8, 3#4, false, 0x001#12, 0⟩   -- ADSR_SET
  , ⟨0x49#8, 0#4, false, 0x000#12, 0⟩   -- ADSR_RST
  , ⟨0x4A#8, 0#4, false, 0x001#12, 2⟩   -- ADSR_ADV
  , ⟨0x50#8, 3#4, true, 0x000#12, 1⟩    -- MIX
  , ⟨0x51#8, 3#4, true, 0x000#12, 1⟩    -- CLAMP
  , ⟨0x60#8, 1#4, false, 0xFFF#12, 0⟩   -- TRK_WR
  , ⟨0x61#8, 0#4, true, 0x000#12, 0⟩    -- MIX_PERIOD
  , ⟨0x62#8, 0#4, true, 0x7FF#12, 1⟩    -- OUT_RD
  , ⟨0x70#8, 0#4, false, 0xFFF#12, 1⟩   -- CSR_RD
  , ⟨0x71#8, 1#4, false, 0xFFF#12, 0⟩ ] -- CSR_WR

/-- The row of an opcode; none where it is unassigned (R86). -/
def opRow (opc : BitVec 8) : Option OpRow := opTable.find? (fun r => r.opc == opc)

/-- `RLEN` of an opcode; 0 for an unknown one (R83). -/
def rlenOf (opc : BitVec 8) : Nat :=
  match opRow opc with
  | some r => r.rlen
  | none => 0

/-- `CH` is `IMM[11]` (R82). -/
def channelOf (b : Bool) : Channel := if b then .right else .left

/-- `SEG` is `IMM[0]` (R82). -/
def segmentOf (b : Bool) : Segment := if b then .release else .attack

/-- The command of an opcode from its fields and operand words (R81, R82, R84). -/
def buildInstr (opc : BitVec 8) (idx : BitVec 8) (imm : BitVec 12) : List Word → Option Instr
  | [] =>
    if opc = 0x02#8 then some (.genRel idx)
    else if opc = 0x03#8 then some .genAdv
    else if opc = 0x04#8 then some (.genRd idx)
    else if opc = 0x31#8 then some (.fftOut idx)
    else if opc = 0x41#8 then some (.lineRst idx)
    else if opc = 0x42#8 then some (.lineAdv idx)
    else if opc = 0x49#8 then some (.adsrRst idx)
    else if opc = 0x4A#8 then some (.adsrAdv idx (imm.getLsbD 0))
    else if opc = 0x61#8 then some .mixPeriod
    else if opc = 0x62#8 then some (.outRd (imm.extractLsb' 0 11))
    else if opc = 0x70#8 then some (.csrRd imm idx)
    else none
  | [a] =>
    if opc = 0x01#8 then some (.genReg (imm.extractLsb' 0 2) a)
    else if opc = 0x21#8 then some (.rvbApply idx a)
    else if opc = 0x30#8 then some (.fftIn idx a)
    else if opc = 0x32#8 then some (.fftShift idx a)
    else if opc = 0x60#8 then
      some (.trkWr idx (imm.extractLsb' 0 11) (channelOf (imm.getLsbD 11)) a)
    else if opc = 0x71#8 then some (.csrWr imm idx a)
    else none
  | [a, b, c] =>
    if opc = 0x10#8 then some (.dlyApply idx a b c)
    else if opc = 0x40#8 then some (.lineSet idx a b c)
    else if opc = 0x48#8 then some (.adsrSet idx (segmentOf (imm.getLsbD 0)) a b c)
    else if opc = 0x50#8 then some (.mix a b c)
    else if opc = 0x51#8 then some (.clamp a b c)
    else none
  | [a, b, c, d, e] =>
    if opc = 0x20#8 then some (.rvbCfg idx a b c d e) else none
  | _ => none

/-- The decoder: a command word and its operand words to a command, in the order of R85 steps 1 to 3. -/
def decode (w0 : Word) (ops : List Word) : Except DecodeError Instr :=
  match opRow (fieldOpc w0) with
  | none => .error .unknownOpcode
  | some r =>
    if fieldLen w0 ≠ r.len ∨ ops.length ≠ r.len.toNat then .error .wrongLength
    else if (r.idxZero ∧ fieldIdx w0 ≠ 0#8) ∨ fieldImm w0 &&& ~~~r.immMask ≠ 0#12 then
      .error .reservedField
    else
      match buildInstr r.opc (fieldIdx w0) (fieldImm w0) ops with
      | some i => .ok i
      | none => .error .unknownOpcode

/-- What stands at the front of the command stream (R87). -/
inductive Framing where
  /-- No word has arrived. -/
  | empty
  /-- A command word whose operand words have not all arrived. -/
  | pending
  /-- A whole command, and the words after it. -/
  | command (w0 : Word) (ops rest : List Word)
  deriving DecidableEq, Repr

/-- Takes one command of `1 + LEN` words from the front of the stream (R80, R87). -/
def frame : List Word → Framing
  | [] => .empty
  | w0 :: rest =>
    if (fieldLen w0).toNat ≤ rest.length then
      .command w0 (rest.take (fieldLen w0).toNat) (rest.drop (fieldLen w0).toNat)
    else .pending

/-- The decoder on a whole command given as its words. -/
def decodeWords (ws : List Word) : Option Instr :=
  match frame ws with
  | .command w0 ops _ =>
    match decode w0 ops with
    | .ok i => some i
    | .error _ => none
  | _ => none

/-- The words of an instruction whose first `nbits` bits are `w` (bit 0 the least significant bit of the
first word), padded with zero words up to the `1 + LEN` words its first word asks for. -/
def tableWords (nbits w : Nat) : List Word :=
  let ws := (List.range (max 1 ((nbits + 31) / 32))).map (fun k => BitVec.ofNat 32 (w / 2 ^ (32 * k)))
  ws ++ List.replicate (1 + (fieldLen (BitVec.ofNat 32 w)).toNat - ws.length) 0#32

/-- The instruction the decoder reads from an instruction whose bits are `w`, numbered as
spec/opcode_table.json numbers them. -/
def decodeTableWord (nbits w : Nat) : Option Instr := decodeWords (tableWords nbits w)

/-- The `CH` bit of a channel (R82). -/
def Channel.bit : Channel → BitVec 1
  | .left => 0#1
  | .right => 1#1

/-- The `SEG` bit of a segment (R82). -/
def Segment.bit : Segment → BitVec 1
  | .attack => 0#1
  | .release => 1#1

/-- The opcode of a command (R84). -/
def Instr.opc : Instr → BitVec 8
  | .genReg .. => 0x01#8 | .genRel _ => 0x02#8 | .genAdv => 0x03#8 | .genRd _ => 0x04#8
  | .dlyApply .. => 0x10#8 | .rvbCfg .. => 0x20#8 | .rvbApply .. => 0x21#8
  | .fftIn .. => 0x30#8 | .fftOut _ => 0x31#8 | .fftShift .. => 0x32#8
  | .lineSet .. => 0x40#8 | .lineRst _ => 0x41#8 | .lineAdv _ => 0x42#8
  | .adsrSet .. => 0x48#8 | .adsrRst _ => 0x49#8 | .adsrAdv .. => 0x4A#8
  | .mix .. => 0x50#8 | .clamp .. => 0x51#8
  | .trkWr .. => 0x60#8 | .mixPeriod => 0x61#8 | .outRd _ => 0x62#8
  | .csrRd .. => 0x70#8 | .csrWr .. => 0x71#8

/-- The `IDX` field of a command (R84). -/
def Instr.idx : Instr → BitVec 8
  | .genRel h | .genRd h => h
  | .dlyApply i .. | .rvbCfg i .. | .rvbApply i _ | .fftIn i _ | .fftOut i | .fftShift i _ => i
  | .lineSet j .. | .lineRst j | .lineAdv j => j
  | .adsrSet e .. | .adsrRst e | .adsrAdv e _ => e
  | .trkWr t .. => t
  | .csrRd _ i | .csrWr _ i _ => i
  | .genReg .. | .genAdv | .mix .. | .clamp .. | .mixPeriod | .outRd _ => 0#8

/-- The `IMM` field of a command (R82). -/
def Instr.imm : Instr → BitVec 12
  | .genReg type _ => 0#10 ++ type
  | .adsrSet _ seg .. => 0#11 ++ seg.bit
  | .adsrAdv _ trig => 0#11 ++ BitVec.ofBool trig
  | .trkWr _ k ch _ => ch.bit ++ k
  | .outRd k => 0#1 ++ k
  | .csrRd addr _ | .csrWr addr _ _ => addr
  | .genRel _ | .genAdv | .genRd _ | .dlyApply .. | .rvbCfg .. | .rvbApply .. | .fftIn .. | .fftOut _
  | .fftShift .. | .lineSet .. | .lineRst _ | .lineAdv _ | .adsrRst _ | .mix .. | .clamp ..
  | .mixPeriod => 0#12

/-- The operand words of a command (R81, R84). -/
def Instr.operands : Instr → List Word
  | .genReg _ f => [f]
  | .dlyApply _ x d fb => [x, d, fb]
  | .rvbCfg _ w d r c p => [w, d, r, c, p]
  | .rvbApply _ x | .fftIn _ x | .fftShift _ x => [x]
  | .lineSet _ l a b | .adsrSet _ _ l a b => [l, a, b]
  | .mix a b t => [a, b, t]
  | .clamp x lo hi => [x, lo, hi]
  | .trkWr _ _ _ v | .csrWr _ _ v => [v]
  | .genRel _ | .genAdv | .genRd _ | .fftOut _ | .lineRst _ | .lineAdv _ | .adsrRst _ | .adsrAdv ..
  | .mixPeriod | .outRd _ | .csrRd .. => []

/-- The command word of a command (R80). -/
def Instr.w0 (i : Instr) : Word := packW0 (BitVec.ofNat 4 i.operands.length) i.imm i.idx i.opc

/-- The words of a command (R80). -/
def encode (i : Instr) : List Word := i.w0 :: i.operands

end Sys2Proof
end

