-- ==== Sys2Proof/Machine/CsrMap.lean ====
section
/-! DEFINITION. The map of the control and status registers (10_state.md R40 to R49): which address
is which register, and which unit an address belongs to. -/

namespace Sys2Proof.Machine

/-- The fields of the reverb parameter registers, in the order of R45. -/
inductive RvbField where
  | wet | decay | room | cutoff | predelay
  deriving DecidableEq, Repr

/-- The fields of a line (R28), in the order of R47. -/
inductive LineField where
  | ntot | rem | start | stop
  deriving DecidableEq, Repr

/-- The units whose registers are per instance (R43 to R48). -/
inductive CsrUnit where
  | gen | dly | rvb | fft | line | adsr
  deriving DecidableEq, Repr

/-- The control and status registers. -/
inductive Csr where
  | status
  | srate | gencap | ntracks | framelen | units | fftn | fscale
  | genKind | genFreq | genPh
  | dlyCap | dlyWp
  | rvbIdx | rvbShadow (f : RvbField) | rvbActive (f : RvbField)
  | fftFlags | fftSidx | fftOidx
  | line (f : LineField)
  | adsrPh | adsrAtk (f : LineField) | adsrRel (f : LineField)
  deriving DecidableEq, Repr

/-- The CSR address map of R41 to R48, one row for each mapped address. -/
def csrTable : List (Nat × Csr) :=
  [ (0x000, .status)
  , (0x001, .srate), (0x002, .gencap), (0x003, .ntracks), (0x004, .framelen)
  , (0x005, .units), (0x006, .fftn), (0x007, .fscale)
  , (0x010, .genKind), (0x011, .genFreq), (0x012, .genPh)
  , (0x100, .dlyCap), (0x101, .dlyWp)
  , (0x200, .rvbIdx) ] ++
  [ (0x201, .rvbShadow .wet), (0x202, .rvbShadow .decay), (0x203, .rvbShadow .room)
  , (0x204, .rvbShadow .cutoff), (0x205, .rvbShadow .predelay)
  , (0x209, .rvbActive .wet), (0x20A, .rvbActive .decay), (0x20B, .rvbActive .room)
  , (0x20C, .rvbActive .cutoff), (0x20D, .rvbActive .predelay) ] ++
  [ (0x300, .fftFlags), (0x301, .fftSidx), (0x302, .fftOidx)
  , (0x400, .line .ntot), (0x401, .line .rem), (0x402, .line .start), (0x403, .line .stop)
  , (0x480, .adsrPh)
  , (0x481, .adsrAtk .ntot), (0x482, .adsrAtk .rem), (0x483, .adsrAtk .start), (0x484, .adsrAtk .stop)
  , (0x485, .adsrRel .ntot), (0x486, .adsrRel .rem), (0x487, .adsrRel .start), (0x488, .adsrRel .stop) ]

/-- The register at an address, or none where the address is unmapped (R49). -/
def csrOf (a : BitVec 12) : Option Csr := csrTable.lookup a.toNat

/-- The unit of a per-instance register; none for a global one (R40). -/
def Csr.unit : Csr → Option CsrUnit
  | .status | .srate | .gencap | .ntracks | .framelen | .units | .fftn | .fscale => none
  | .genKind | .genFreq | .genPh => some .gen
  | .dlyCap | .dlyWp => some .dly
  | .rvbIdx | .rvbShadow _ | .rvbActive _ => some .rvb
  | .fftFlags | .fftSidx | .fftOidx => some .fft
  | .line _ => some .line
  | .adsrPh | .adsrAtk _ | .adsrRel _ => some .adsr

end Sys2Proof.Machine
end

