-- ==== Sys2Proof/Config.lean ====
section
/-! DEFINITION. The implementation parameters of 00_scope.md R5, the named constants, and the values
no rule fixes (R11), each an opaque constant without a body. -/

namespace Sys2Proof

/-- The five reverb parameters (R26, R161). -/
structure RvbParams where
  wet : B32
  decay : B32
  room : B32
  cutoff : B32
  predelay : B32
  deriving DecidableEq, Repr

/-- The kernel's private state, an OPEN type (R161). DESIGN CHOICE (log 11): whatever the algorithm
remembers is carried as a list of words of any length. -/
abbrev RvbState := List Word

/-- The type of a reverberation kernel (R161): parameters, private state and a full input chunk give
an output chunk of the same length and the next private state. -/
abbrev RvbKernel := RvbParams → RvbState → Vector B32 32 → Vector B32 32 × RvbState

/-- Which arithmetic the block has: the default of R9, or another one (`NUM` is a parameter, R5). -/
inductive NumUnit where
  /-- IEEE 754 binary32, round to nearest even. -/
  | ieee754
  /-- Any other: `Config.customOp`. -/
  | custom
  deriving DecidableEq, Repr

/-- Which sine function the block has: the default of R5, or another one (OPEN). -/
inductive SineUnit where
  /-- The correctly rounded sine. -/
  | correctlyRounded
  /-- Any other, such as a table or a polynomial: `Config.customSine`. -/
  | custom
  deriving DecidableEq, Repr

/-- The operations whose results on some operands no rule fixes (R9). -/
inductive FOp where
  | add | sub | mul | div | fmod | sine
  deriving DecidableEq, Repr

/-- Where the block sits in a host's physical address space (20_memory.md R65): the addresses of byte 0
of the output frame buffer and of the command port. No rule of the block reads them (log 17). -/
structure PlatformMap where
  buffer : Nat
  port : Nat
  deriving DecidableEq, Repr

/-- The configuration record of R5, as plain data. `N_DELAY` is the length of `dlyCap`. -/
structure Config where
  /-- `SR`, in Hz. -/
  sr : Nat
  /-- `GEN_CAP`. -/
  genCap : Nat
  /-- `N_TRACKS`. -/
  nTracks : Nat
  /-- `FRAME_LEN`. -/
  frameLen : Nat
  /-- `DLY_CAP[i]`, one entry for each delay instance. -/
  dlyCap : List Nat
  /-- `N_REVERB`. -/
  nReverb : Nat
  /-- `rvb_kernel`: which algorithm the reverb blocks run; `Config.kernelNamed` is what it does (log 11). -/
  rvbKernel : Nat
  /-- `rvb_state0`. -/
  rvbState0 : RvbState
  /-- `N_FFT`. -/
  nFft : Nat
  /-- `FFT_N`. -/
  fftN : Nat
  /-- `FFT_WINDOW[0..FFT_L-1]`. -/
  fftWindow : List B32
  /-- `N_LINE`. -/
  nLine : Nat
  /-- `N_ADSR`. -/
  nAdsr : Nat
  /-- `FS`, the quantizer's full-scale constant. -/
  fs : Nat
  /-- `NUM`. -/
  num : NumUnit
  /-- `sin32`. -/
  sine : SineUnit
  /-- `PLATFORM_MAP` (20_memory.md R65). -/
  platformMap : PlatformMap
  deriving DecidableEq, Repr

/-- `N_DELAY`. -/
abbrev Config.nDelay (c : Config) : Nat := c.dlyCap.length

/-- `FFT_L = 2 × FFT_N` (R5). -/
abbrev Config.fftL (c : Config) : Nat := 2 * c.fftN

/-- The base configuration `CFG-A` of 95_test_vectors.md section 2. DESIGN CHOICE (log 1): the spec
leaves these parameters OPEN; `State.reset` takes this configuration, and the statements are made for
every configuration. `CFG-A` gives no value to three of them, which the model chooses (DESIGN CHOICE, log 1):
`rvb_state0` (R161), `KST`'s reset value, is the empty list, `rvb_kernel` is number 0, and `PLATFORM_MAP`
(20_memory.md R65) has both addresses 0. -/
def Config.cfgA : Config where
  sr := 8
  genCap := 4
  nTracks := 2
  frameLen := 4
  dlyCap := [4]
  nReverb := 1
  rvbKernel := 0
  rvbState0 := []
  nFft := 1
  fftN := 2
  fftWindow := [0x00000000#32, 0x3F000000#32, 0x3F800000#32, 0x3F000000#32]
  nLine := 1
  nAdsr := 1
  fs := 32768
  num := .ieee754
  sine := .correctlyRounded
  platformMap := ⟨0, 0⟩

/-- Free value: the `n`-th draw of a value that no rule fixes (`ANY`, R11; log 5). -/
opaque Config.anyWord : Nat → Word

/-- Free value: the byte the sink gets at an address from a read that no rule fixes (R69, R11; log 14),
by the draw index at the time of the read and the address. -/
opaque Config.anySinkByte : Nat → Nat → Byte

/-- Free value: the bits of a NaN result, by the operation and its operands. R9's default NaN
propagation fixes no payload (95_test_vectors.md section 2; log 8). -/
opaque Config.nanBits : FOp → B32 → B32 → B32

/-- OPEN: the arithmetic of a block whose `NUM` is not the default (R5; log 9). -/
opaque Config.customOp : FOp → B32 → B32 → B32

/-- OPEN: the sine of a block whose `sin32` is not the default (R5; log 9). -/
opaque Config.customSine : B32 → B32

/-- Free value: what a 32-bit register reads whose parameter has this value and does not fit it: R42 states
no word for it (log 21). -/
opaque Config.wideRegister : Nat → Word

/-- OPEN: the reverberation algorithms, one for each value of the parameter `rvb_kernel` (R161; log 11). -/
opaque Config.kernelNamed : Nat → RvbKernel

/-- `rvb_kernel` (R161). -/
def Config.kernel (c : Config) : RvbKernel := Config.kernelNamed c.rvbKernel

end Sys2Proof
end

