-- ==== Sys2Proof/Machine/Float.lean ====
section
/-! DEFINITION. The binary32 arithmetic of 00_scope.md R9: every finite value is a whole multiple of
2^-149, so an operation is computed exactly on integers and rounded once. Details that R9 takes from
IEEE 754 (signed zeros, overflow to infinity, the special cases of the remainder) are PRESUMED (log 19). -/

namespace Sys2Proof.Machine

/-- The sign bit. -/
def signBit (x : B32) : Bool := x.msb

/-- The pattern without its sign bit, as a number; it orders the magnitudes. -/
def magBits (x : B32) : Nat := x.toNat % 0x80000000

/-- `isnan(x)` (R9). -/
def isNaN (x : B32) : Bool := decide (0x7F800000 < magBits x)

/-- An infinity. -/
def isInf (x : B32) : Bool := magBits x == 0x7F800000

/-- Neither an infinity nor a NaN. -/
def isFinite (x : B32) : Bool := decide (magBits x < 0x7F800000)

/-- The magnitude of a finite value in units of 2^-149. -/
def mag (x : B32) : Nat :=
  let m := magBits x
  let e := m / 0x800000
  if e = 0 then m else (0x800000 + m % 0x800000) * 2 ^ (e - 1)

/-- A finite value in units of 2^-149. -/
def scaled (x : B32) : Int := if signBit x then -(mag x : Int) else (mag x : Int)

/-- 2^149: one, in the unit of `mag`. -/
def unitScale : Nat := 2 ^ 149

/-- `n / d` rounded to the nearest integer, ties to even. -/
def roundEven (n d : Nat) : Nat :=
  let q := n / d
  let r := n % d
  if 2 * r < d then q else if d < 2 * r then q + 1 else q + q % 2

/-- The pattern of the magnitude `n / d` (in units of 2^-149) rounded to nearest even, with overflow to
infinity. -/
def roundMag (n d : Nat) : Nat :=
  let e := Nat.log2 (n / d) - 23
  min (e * 0x800000 + roundEven n (d * 2 ^ e)) 0x7F800000

/-- A value from its sign and its pattern without the sign. -/
def ofMagBits (neg : Bool) (m : Nat) : B32 := BitVec.ofNat 32 (if neg then 0x80000000 + m else m)

/-- The value `n / d`, in units of 2^-149, with a sign, rounded once. -/
def roundQ (neg : Bool) (n d : Nat) : B32 := ofMagBits neg (roundMag n d)

/-- An infinity with a sign. -/
def infinity (neg : Bool) : B32 := ofMagBits neg 0x7F800000

/-- A NaN result: its payload and sign are free values (log 8). -/
def nanResult (op : FOp) (a b : B32) : B32 :=
  let x := Config.nanBits op a b
  if isNaN x then x else x ||| 0x7FC00000#32

/-- The sign flip of R181, zeros included. -/
def fneg (x : B32) : B32 := x ^^^ 0x80000000#32

/-- The sum in binary32, rounded once. -/
def ieeeAdd (a b : B32) : B32 :=
  if isNaN a || isNaN b then nanResult .add a b
  else if isInf a then
    if isInf b && signBit a != signBit b then nanResult .add a b else a
  else if isInf b then b
  else
    let v := scaled a + scaled b
    if v = 0 then ofMagBits (signBit a && signBit b) 0
    else roundQ (decide (v < 0)) v.natAbs 1

/-- The difference in binary32, rounded once. -/
def ieeeSub (a b : B32) : B32 :=
  if isNaN a || isNaN b then nanResult .sub a b
  else if isInf a && isInf b && signBit a == signBit b then nanResult .sub a b
  else ieeeAdd a (fneg b)

/-- The product in binary32, rounded once. -/
def ieeeMul (a b : B32) : B32 :=
  let s := signBit a != signBit b
  if isNaN a || isNaN b then nanResult .mul a b
  else if isInf a || isInf b then
    if (isInf a && magBits b == 0) || (isInf b && magBits a == 0) then nanResult .mul a b
    else infinity s
  else roundQ s (mag a * mag b) unitScale

/-- The quotient in binary32, rounded once. -/
def ieeeDiv (a b : B32) : B32 :=
  let s := signBit a != signBit b
  if isNaN a || isNaN b then nanResult .div a b
  else if isInf a then
    if isInf b then nanResult .div a b else infinity s
  else if isInf b then ofMagBits s 0
  else if magBits b = 0 then
    if magBits a = 0 then nanResult .div a b else infinity s
  else roundQ s (mag a * unitScale) (mag b)

/-- `fadd` (R9). -/
def fadd (u : NumUnit) (a b : B32) : B32 :=
  match u with
  | .ieee754 => ieeeAdd a b
  | .custom => Config.customOp .add a b

/-- `fsub` (R9). -/
def fsub (u : NumUnit) (a b : B32) : B32 :=
  match u with
  | .ieee754 => ieeeSub a b
  | .custom => Config.customOp .sub a b

/-- `fmul` (R9). -/
def fmul (u : NumUnit) (a b : B32) : B32 :=
  match u with
  | .ieee754 => ieeeMul a b
  | .custom => Config.customOp .mul a b

/-- `fdiv` (R9). -/
def fdiv (u : NumUnit) (a b : B32) : B32 :=
  match u with
  | .ieee754 => ieeeDiv a b
  | .custom => Config.customOp .div a b

/-- `fmod32` (R9): the remainder with the quotient truncated toward zero and the sign of `a`; exact. -/
def fmod32 (a b : B32) : B32 :=
  if isNaN a || isNaN b || isInf a || magBits b == 0 then nanResult .fmod a b
  else if isInf b then a
  else roundQ (signBit a) (mag a % mag b) 1

/-- `to_b32(n)` (R9): the integer rounded to nearest even. -/
def toB32 (n : Int) : B32 := roundQ (decide (n < 0)) (n.natAbs * unitScale) 1

/-- The place of a value that is not a NaN in the order of R9; the two zeros share one place. -/
def orderKey (x : B32) : Int := if signBit x then -(magBits x : Int) else (magBits x : Int)

/-- `a < b` (R9): false where either is a NaN. -/
def flt (a b : B32) : Bool := !isNaN a && !isNaN b && decide (orderKey a < orderKey b)

/-- `a ≤ b` (R9): false where either is a NaN. -/
def fle (a b : B32) : Bool := !isNaN a && !isNaN b && decide (orderKey a ≤ orderKey b)

/-- `trunc(v)` (R8): the integer nearest a finite value toward zero. -/
def truncInt (x : B32) : Int :=
  let n := mag x / unitScale
  if signBit x then -(n : Int) else (n : Int)

/-- `floor(v)` (R8) of a finite value. -/
def floorInt (x : B32) : Int := scaled x / (unitScale : Int)

end Sys2Proof.Machine
end

