-- ==== Sys2Proof/Machine/State.lean ====
section
/-! DEFINITION. The state of the block as plain data (10_state.md R20 to R53, 70_reset_and_hazards.md
R341), the reasons a step can stop, and the state after reset. -/

namespace Sys2Proof.Machine

/-- `GEN[h].KIND` (R23): 0 Free, 1 Sine, 2 Phasor; code 3 never occurs. -/
inductive GenKind where
  | free | sine | phasor
  deriving DecidableEq, Repr

/-- A generator slot (R23). -/
structure GenSlot where
  kind : GenKind
  freq : B32
  ph : B32
  out : B32
  deriving DecidableEq, Repr

/-- A Free slot: every field is `+0.0` (R24). -/
def GenSlot.free : GenSlot := ⟨.free, zero32, zero32, zero32⟩

/-- A delay line (R25): the circular buffer, and the write head modulo its capacity. -/
structure Delay where
  buf : List B32
  wp : Nat
  deriving DecidableEq, Repr

/-- A reverb block (R26). -/
structure Reverb where
  /-- `IN[0..31]`, the input chunk being filled. -/
  inp : Vector B32 32
  /-- `OUT[0..31]`, the output chunk being drained. -/
  out : Vector B32 32
  /-- `RIDX`. -/
  ridx : Fin 32
  shadow : RvbParams
  active : RvbParams
  /-- `KST`. -/
  kst : RvbState
  deriving DecidableEq, Repr

/-- A complex value (R181). -/
structure Cpx where
  re : B32
  im : B32
  deriving DecidableEq, Repr

/-- The complex value `(+0.0, +0.0)`. -/
def Cpx.zero : Cpx := ⟨zero32, zero32⟩

/-- A spectral processor (R27). -/
structure Spectral where
  cur : List B32
  ovl : List B32
  work : List Cpx
  pers : List Cpx
  olaOut : List B32
  olaTail : List B32
  sidx : Nat
  oidx : Nat
  stage : Bool
  ready : Bool
  deriving DecidableEq, Repr

/-- A line, or a segment of an ADSR unit (R28, R29). `stop` is the rule's `END`. -/
structure Line where
  ntot : Word
  rem : Word
  start : B32
  stop : B32
  deriving DecidableEq, Repr

/-- `ADSR[e].PH` (R29): 0 ATTACK, 1 SUSTAIN, 2 RELEASE, 3 DONE. -/
inductive AdsrPhase where
  | attack | sustain | release | done
  deriving DecidableEq, Repr

/-- An ADSR unit (R29). -/
structure Adsr where
  atk : Line
  rel : Line
  ph : AdsrPhase
  deriving DecidableEq, Repr

/-- The two channels of one entry of a track buffer (R30). -/
structure Stereo where
  left : B32
  right : B32
  deriving DecidableEq, Repr

/-- The status codes of a response (R83). -/
inductive RespCode where
  | ok | exhausted | badHandle | illegal | precond | range
  deriving DecidableEq, Repr

/-- A response (R83): the status and the data words. -/
structure Response where
  code : RespCode
  data : List Word
  deriving DecidableEq, Repr

/-- The bytes of the output frame buffer's space (R60, R61): address and byte, addresses strictly rising,
no entry equal to what an unlisted address reads as, which is 0 (R31's reset value; log 12). -/
abbrev Memory := List Host.Cell

/-- A sink read that has begun and not finished (R69; the model's own record, log 14): where it reads,
and whether a `MIX_PERIOD` or a reset overlapped it. -/
structure SinkRead where
  addr : Nat
  size : Nat
  raced : Bool
  deriving DecidableEq, Repr

/-- The state of the block. -/
structure State where
  /-- The parameters of R5, which no step changes (R6; log 1). -/
  cfg : Config
  /-- The index of the next command (R21). -/
  pc : Nat
  /-- The words at the command port not yet taken, oldest first (R60, R341). -/
  stream : List Word
  /-- The responses so far, oldest first (R346). -/
  responses : List Response
  /-- `GEN` (R23). -/
  gen : List GenSlot
  /-- `DLY` (R25). -/
  dly : List Delay
  /-- `RVB` (R26). -/
  rvb : List Reverb
  /-- `FFT` (R27). -/
  fft : List Spectral
  /-- `LINE` (R28). -/
  line : List Line
  /-- `ADSR` (R29). -/
  adsr : List Adsr
  /-- `TRK` (R30): track, sample, channel. -/
  trk : List (List Stereo)
  /-- The bytes of `OUTB` (R31, R61). -/
  mem : Memory
  /-- `STATUS` (R41). -/
  status : Word
  /-- `POISON` (R52). -/
  poison : Bool
  /-- The index of the next free value (R11; the model's own, log 5). -/
  draws : Nat
  /-- The outstanding sink reads, oldest first (R69; the model's own, log 14). -/
  sinkReads : List SinkRead
  deriving DecidableEq, Repr

/-- Where the machine is stuck: no step exists (R308). Every one is safe. -/
inductive Fault where
  /-- Raised by `step`: the stream is empty, so the run has ended (R346). Safe. -/
  | noCommand
  /-- Raised by `step`: the command's operand words have not all arrived (R87). Safe. -/
  | operandsPending
  /-- Raised by the sink's read port: the read reaches outside the output frame buffer (R61, R63). Safe. -/
  | sinkOutsideBuffer
  /-- Raised by the sink's read port: a size other than 1, 2 or 4 bytes (R63). Safe. -/
  | sinkBadSize
  /-- Raised by the sink's read port: a read ends that never began (R69). Safe. -/
  | sinkNoRead
  deriving DecidableEq, Repr

/-- Why there is no meaning. -/
inductive Refusal where
  /-- Raised by an arm of `exec` whose command has no meaning yet. Safe. -/
  | notModelled (mnemonic : String)
  /-- Raised by `step`: the parameters break a bound of R5, so there is no block (R6). Safe. -/
  | badConfiguration
  deriving DecidableEq, Repr

/-- The outcome of a step. -/
abbrev Outcome := Host.Outcome State Fault Refusal

/-- The reset values of a delay line of capacity `c` (R25). -/
def Delay.reset (c : Nat) : Delay := ⟨List.replicate c zero32, 0⟩

/-- The reverb parameters after reset (R26). -/
def rvbParamsReset : RvbParams := ⟨zero32, zero32, zero32, zero32, zero32⟩

/-- The reset values of a reverb block (R26). -/
def Reverb.reset (k : RvbState) : Reverb :=
  ⟨Vector.replicate 32 zero32, Vector.replicate 32 zero32, 0, rvbParamsReset, rvbParamsReset, k⟩

/-- The reset values of a spectral processor of frame size `n` (R27): `OIDX = N`. -/
def Spectral.reset (n : Nat) : Spectral :=
  { cur := List.replicate n zero32
    ovl := List.replicate n zero32
    work := List.replicate (2 * n) Cpx.zero
    pers := List.replicate (2 * n) Cpx.zero
    olaOut := List.replicate n zero32
    olaTail := List.replicate n zero32
    sidx := 0
    oidx := n
    stage := false
    ready := false }

/-- The reset values of a line (R28). -/
def Line.reset : Line := ⟨0#32, 0#32, zero32, zero32⟩

/-- The reset values of an ADSR unit (R29). -/
def Adsr.reset : Adsr := ⟨Line.reset, Line.reset, .attack⟩

/-- A track buffer whose entries are all `+0.0` (R30). -/
def silentTrack (frameLen : Nat) : List Stereo := List.replicate frameLen ⟨zero32, zero32⟩

/-- The state right after reset, for a configuration (R340, R341). -/
def State.resetWith (c : Config) : State where
  cfg := c
  pc := 0
  stream := []
  responses := []
  gen := List.replicate c.genCap GenSlot.free
  dly := c.dlyCap.map Delay.reset
  rvb := List.replicate c.nReverb (Reverb.reset c.rvbState0)
  fft := List.replicate c.nFft (Spectral.reset c.fftN)
  line := List.replicate c.nLine Line.reset
  adsr := List.replicate c.nAdsr Adsr.reset
  trk := List.replicate c.nTracks (silentTrack c.frameLen)
  mem := []
  status := 0#32
  poison := false
  draws := 0
  sinkReads := []

/-- The machine right after reset (R341), with the parameters of `CFG-A` (log 1). -/
def State.reset : State := State.resetWith Config.cfgA

end Sys2Proof.Machine
end

