-- ==== Sys2Proof/Machine/Flags.lean ====
section
/-! DEFINITION. The flags of the block (10_state.md R22, R41, R52): the STATUS bits, how an outcome sets
them (60_exceptions.md R303) and how a write clears them (46_csr.md R281), the code words of the flags
that registers read, and POISON. -/

namespace Sys2Proof.Machine

/-- The STATUS bit of an outcome (R41, R302): ILL 0, EXH 1, BADH 2, PRECOND 3, QRANGE 4; `OK` has none. -/
def statusBit : RespCode → Word
  | .ok => 0x00#32
  | .illegal => 0x01#32
  | .exhausted => 0x02#32
  | .badHandle => 0x04#32
  | .precond => 0x08#32
  | .range => 0x10#32

/-- The writable bits of STATUS (R41). -/
def statusMask : Word := 0x1F#32

/-- Sets STATUS bits; the others keep their values (R303: sticky). -/
def State.orStatus (bits : Word) (s : State) : State := { s with status := s.status ||| bits }

/-- Write 1 to clear (R41, R281). -/
def State.clearStatus (v : Word) (s : State) : State :=
  { s with status := s.status &&& ~~~(v &&& statusMask) }

/-- `flag PRECOND` (R10, R303): sets STATUS.PRECOND and POISON. -/
def State.flagPrecond (s : State) : State :=
  { s with status := s.status ||| statusBit .precond, poison := true }

/-- The status code of a response word (R83). -/
def RespCode.word : RespCode → Word
  | .ok => 0#32
  | .exhausted => 1#32
  | .badHandle => 2#32
  | .illegal => 3#32
  | .precond => 4#32
  | .range => 5#32

/-- The words of a response: `RS`, then the data words (R83). -/
def Response.words (r : Response) : List Word := r.code.word :: r.data

/-- The code of `GEN[h].KIND` (R23). -/
def GenKind.code : GenKind → Word
  | .free => 0#32
  | .sine => 1#32
  | .phasor => 2#32

/-- The code of `ADSR[e].PH` (R29). -/
def AdsrPhase.code : AdsrPhase → Word
  | .attack => 0#32
  | .sustain => 1#32
  | .release => 2#32
  | .done => 3#32

/-- `FFT_FLAGS`: bit 0 STAGE, bit 1 READY (R46). -/
def Spectral.flags (f : Spectral) : Word := 0#30 ++ BitVec.ofBool f.ready ++ BitVec.ofBool f.stage

/-- A done bit as a data word (R224, R228). -/
def doneWord (d : Bool) : Word := 0#31 ++ BitVec.ofBool d

end Sys2Proof.Machine
end

