-- ==== Sys2Proof/Machine/Ops.lean ====
section
/-! DEFINITION. The named operations over the state: the output frame buffer's bytes (20_memory.md R61),
free values (00_scope.md R11), the response of a command (30_encoding.md R83), raising an error
(60_exceptions.md R302, R303), taking a command from the stream (R87), and one update for each piece
of unit state. -/

namespace Sys2Proof.Machine

/-! ## The output frame buffer -/

/-- The canonical form: addresses strictly rising, no listed byte 0. -/
abbrev Memory.wf (m : Memory) : Prop :=
  m.Pairwise (fun a b => a.1 < b.1) ∧ ∀ c ∈ m, c.2 ≠ 0#8

/-- The byte at an address; an unlisted one reads 0 (R31, R341: every entry resets to 0). -/
def Memory.read (m : Memory) (a : Nat) : Byte := (m.lookup a).getD 0#8

/-- The memory that holds these bytes from an address on, and 0 everywhere else, in canonical form. -/
def Memory.fromBytes (a : Nat) : List Byte → Memory
  | [] => []
  | b :: bs => if b = 0#8 then Memory.fromBytes (a + 1) bs else (a, b) :: Memory.fromBytes (a + 1) bs

/-- The bytes of a sample: byte 0 is bits 7:0, byte 1 is bits 15:8 (R61). -/
def sampleBytes (q : Sample) : List Byte := [q.extractLsb' 0 8, q.extractLsb' 8 8]

/-- The `n` bytes from an address on. -/
def Memory.readBytes (m : Memory) (a n : Nat) : List Byte := (List.range n).map (fun k => m.read (a + k))

/-- `OUTB[k][c]`: the little-endian value at byte `4k + 2c` (R61). -/
def Memory.sample (m : Memory) (k c : Nat) : Sample := m.read (4 * k + 2 * c + 1) ++ m.read (4 * k + 2 * c)

/-! ## Free values -/

/-- The `k`-th of the next free values (R11). -/
def State.anyWord (s : State) (k : Nat) : Word := Config.anyWord (s.draws + k)

/-- The next `n` free values (R11). -/
def State.anyWords (s : State) (n : Nat) : List Word := (List.range n).map s.anyWord

/-- Moves past `n` free values. -/
def State.skipDraws (n : Nat) (s : State) : State := { s with draws := s.draws + n }

/-! ## Responses and errors -/

/-- The data words a response carries: the rule's own, or free values once POISON is set (R11, R52). -/
def State.replyData (s : State) (data : List Word) : List Word :=
  if s.poison then s.anyWords data.length else data

/-- The one response of a command (R83), appended to the list of responses (R346). -/
def State.respond (code : RespCode) (data : List Word) (s : State) : State :=
  { s with
    responses := s.responses ++ [⟨code, s.replyData data⟩]
    draws := s.draws + (if s.poison then data.length else 0) }

/-- `reply(code, data)` (R10). -/
def reply (code : RespCode) (data : List Word) (s : State) : Outcome := .next (s.respond code data)

/-- `raise E()` (R10, R303): the response of `E` with the data words of R302, and no change of state
but the STATUS bit of `E`. The block has no trap (R305): the next command executes normally. -/
def raise (code : RespCode) (data : List Word) (s : State) : Outcome :=
  reply code data (s.orStatus (statusBit code))

/-- `raise BAD_HANDLE()` for an opcode of `rlen` data words, all 0 (R83). -/
def raiseBadHandle (rlen : Nat) (s : State) : Outcome := raise .badHandle (List.replicate rlen 0#32) s

/-- `raise ILLEGAL()` for an opcode of `rlen` data words, all 0 (R83). -/
def raiseIllegal (rlen : Nat) (s : State) : Outcome := raise .illegal (List.replicate rlen 0#32) s

/-- `EXHAUSTED` with its sentinel (R83, R113). -/
def raiseExhausted (s : State) : Outcome := raise .exhausted [0xFFFFFFFF#32] s

/-- `flag PRECOND; reply(PRECOND, data)`. The response of the violating command itself is not a later
one (R11), so POISON is set after it (log 6). -/
def replyPrecond (data : List Word) (s : State) : Outcome := .next (s.respond .precond data).flagPrecond

/-! ## The command stream -/

/-- Takes a command off the stream: `rest` is what follows its `1 + LEN` words, and the pc moves by
one (R21, R87). -/
def State.consume (rest : List Word) (s : State) : State := { s with pc := s.pc + 1, stream := rest }

/-! ## Unit state -/

/-- `GEN[h] <- g`. -/
def State.setGen (h : Nat) (g : GenSlot) (s : State) : State := { s with gen := s.gen.set h g }

/-- Every slot at once. -/
def State.setGens (gs : List GenSlot) (s : State) : State := { s with gen := gs }

/-- `DLY[i] <- d`. -/
def State.setDly (i : Nat) (d : Delay) (s : State) : State := { s with dly := s.dly.set i d }

/-- `RVB[i] <- r`. -/
def State.setRvb (i : Nat) (r : Reverb) (s : State) : State := { s with rvb := s.rvb.set i r }

/-- `FFT[i] <- f`. -/
def State.setFft (i : Nat) (f : Spectral) (s : State) : State := { s with fft := s.fft.set i f }

/-- `LINE[j] <- l`. -/
def State.setLine (j : Nat) (l : Line) (s : State) : State := { s with line := s.line.set j l }

/-- `ADSR[e] <- a`. -/
def State.setAdsr (e : Nat) (a : Adsr) (s : State) : State := { s with adsr := s.adsr.set e a }

/-- `TRK[t] <- b`. -/
def State.setTrk (t : Nat) (b : List Stereo) (s : State) : State := { s with trk := s.trk.set t b }

/-- Every track buffer at once. -/
def State.setTrks (bs : List (List Stereo)) (s : State) : State := { s with trk := bs }

/-- The output frame buffer, whole. Every sink read still outstanding is overlapped by it (R69). -/
def State.setFrame (m : Memory) (s : State) : State :=
  { s with mem := m, sinkReads := s.sinkReads.map (fun r => { r with raced := true }) }

end Sys2Proof.Machine
end

