-- ==== Sys2Proof/Machine/Params.lean ====
section
/-! DEFINITION. The bounds of the parameters (00_scope.md R5, R6) and the named constants of the spec. -/

namespace Sys2Proof.Machine

/-- The bounds of R5. A configuration that breaks one has no block (R6). `FS`, `NUM`, `sin32`, the reverb
kernel and the platform map have no bound. -/
def cfgValid (c : Config) : Bool :=
  decide (1 ≤ c.sr) &&
  decide (1 ≤ c.genCap ∧ c.genCap ≤ 255) &&
  decide (1 ≤ c.nTracks ∧ c.nTracks ≤ 255) &&
  decide (1 ≤ c.frameLen ∧ c.frameLen ≤ 2048) &&
  decide (1 ≤ c.nDelay ∧ c.nDelay ≤ 15) &&
  c.dlyCap.all (fun n => decide (1 ≤ n ∧ n ≤ 2 ^ 24)) &&
  decide (1 ≤ c.nReverb ∧ c.nReverb ≤ 15) &&
  decide (1 ≤ c.nFft ∧ c.nFft ≤ 15) &&
  decide (1 ≤ c.fftN ∧ c.fftN ≤ 2048 ∧ 2 ^ Nat.log2 c.fftN = c.fftN) &&
  decide (c.fftWindow.length = c.fftL) &&
  decide (c.nLine ≤ 15) &&
  decide (c.nAdsr ≤ 15)

/-- `TWO_PI32`, the `b32` value nearest 2π (R9). -/
def twoPi32 : B32 := 0x40C90FDB#32

end Sys2Proof.Machine
end

