-- ==== Sys2Proof/Machine/Operands.lean ====
section
/-! DEFINITION. What a command's fields and operands name: the unit of an index (60_exceptions.md R301), a
generator handle, `TYPE`, a length and a delay in samples (44_envelope.md R220, 41_delay.md R140,
R142), a frequency's precondition (40_generators.md R110), and the value of a register (10_state.md
R41 to R48). -/

namespace Sys2Proof.Machine

/-- The instance an `IDX` names, checked against the unit's count (R301). -/
def unitAt {α : Type} (count : Nat) (units : List α) (i : BitVec 8) : Option α :=
  if i.toNat < count then units[i.toNat]? else none

/-- The slot of a handle; none where it is out of range or Free (R301). -/
def State.liveGen (s : State) (h : BitVec 8) : Option GenSlot :=
  match unitAt s.cfg.genCap s.gen h with
  | some g => if g.kind = .free then none else some g
  | none => none

/-- `TYPE`: 1 is Sine, 2 is Phasor; 0 and 3 are illegal (R82). -/
def genKindOf (t : BitVec 2) : Option GenKind :=
  if t = 1#2 then some .sine else if t = 2#2 then some .phasor else none

/-- `SR_f` (R5). -/
def srF (c : Config) : B32 := toB32 c.sr

/-- The frequency precondition: `0.0 ≤ f < SR_f` (R110). -/
def freqOk (c : Config) (f : B32) : Bool := fle zero32 f && flt f (srF c)

/-- `seg_len` (R220): the sample count of a length in seconds; none where no `u32` count exists. -/
def segLen (c : Config) (len : B32) : Option Word :=
  let n := fmul c.num len (srF c)
  if isNaN n || flt n zero32 || fle (toB32 4294967296) n then none
  else some (BitVec.ofInt 32 (truncInt n))

/-- `D_r` (R140): the delay in samples, before truncation. -/
def delayRaw (c : Config) (d : B32) : B32 := fmul c.num d (srF c)

/-- `pre_ok` (R142). -/
def delayPreOk (dr fb : B32) (cap : Nat) : Bool :=
  isFinite dr && fle zero32 dr && decide (truncInt dr ≤ cap) &&
    !isNaN fb && flt (toB32 (-1)) fb && flt fb one32

/-- The number of instances of a unit, as the register index check has it (R50). -/
def csrCount (c : Config) : CsrUnit → Nat
  | .gen => c.genCap
  | .dly => c.nDelay
  | .rvb => c.nReverb
  | .fft => c.nFft
  | .line => c.nLine
  | .adsr => c.nAdsr

/-- A field of the reverb parameters (R45). -/
def rvbFieldValue (p : RvbParams) : RvbField → Word
  | .wet => p.wet
  | .decay => p.decay
  | .room => p.room
  | .cutoff => p.cutoff
  | .predelay => p.predelay

/-- A field of a line (R47, R48). -/
def lineFieldValue (l : Line) : LineField → Word
  | .ntot => l.ntot
  | .rem => l.rem
  | .start => l.start
  | .stop => l.stop

/-- `UNITS` (R42): bits 3:0 N_DELAY, 7:4 N_REVERB, 11:8 N_FFT, 15:12 N_LINE, 19:16 N_ADSR. -/
def unitsWord (c : Config) : Word :=
  0#12 ++ BitVec.ofNat 4 c.nAdsr ++ BitVec.ofNat 4 c.nLine ++ BitVec.ofNat 4 c.nFft ++
    BitVec.ofNat 4 c.nReverb ++ BitVec.ofNat 4 c.nDelay

/-- The word a register reads for a parameter that R5 does not bound by 2^32 (R42): the parameter, or a free
value where 32 bits do not hold it (log 21). -/
def paramWord (n : Nat) : Word := if n < 2 ^ 32 then BitVec.ofNat 32 n else Config.wideRegister n

/-- `csr_value` (R280, R41 to R48); none where the index of a per-instance register is out of range
(R50). -/
def csrValue (r : Csr) (i : BitVec 8) (s : State) : Option Word :=
  match r with
  | .status => some s.status
  | .srate => some (paramWord s.cfg.sr)
  | .gencap => some (BitVec.ofNat 32 s.cfg.genCap)
  | .ntracks => some (BitVec.ofNat 32 s.cfg.nTracks)
  | .framelen => some (BitVec.ofNat 32 s.cfg.frameLen)
  | .units => some (unitsWord s.cfg)
  | .fftn => some (BitVec.ofNat 32 s.cfg.fftN)
  | .fscale => some (paramWord s.cfg.fs)
  | .genKind => (unitAt s.cfg.genCap s.gen i).map fun g => g.kind.code
  | .genFreq => (unitAt s.cfg.genCap s.gen i).map fun g => g.freq
  | .genPh => (unitAt s.cfg.genCap s.gen i).map fun g => g.ph
  | .dlyCap => (unitAt s.cfg.nDelay s.cfg.dlyCap i).map fun n => BitVec.ofNat 32 n
  | .dlyWp => (unitAt s.cfg.nDelay s.dly i).map fun d => BitVec.ofNat 32 d.wp
  | .rvbIdx => (unitAt s.cfg.nReverb s.rvb i).map fun r => BitVec.ofNat 32 r.ridx.val
  | .rvbShadow f => (unitAt s.cfg.nReverb s.rvb i).map fun r => rvbFieldValue r.shadow f
  | .rvbActive f => (unitAt s.cfg.nReverb s.rvb i).map fun r => rvbFieldValue r.active f
  | .fftFlags => (unitAt s.cfg.nFft s.fft i).map fun f => f.flags
  | .fftSidx => (unitAt s.cfg.nFft s.fft i).map fun f => BitVec.ofNat 32 f.sidx
  | .fftOidx => (unitAt s.cfg.nFft s.fft i).map fun f => BitVec.ofNat 32 f.oidx
  | .line f => (unitAt s.cfg.nLine s.line i).map fun l => lineFieldValue l f
  | .adsrPh => (unitAt s.cfg.nAdsr s.adsr i).map fun a => a.ph.code
  | .adsrAtk f => (unitAt s.cfg.nAdsr s.adsr i).map fun a => lineFieldValue a.atk f
  | .adsrRel f => (unitAt s.cfg.nAdsr s.adsr i).map fun a => lineFieldValue a.rel f

end Sys2Proof.Machine
end

