-- ==== Sys2Proof/Machine/CsrCommands.lean ====
section
/-! DEFINITION. The register commands (46_csr.md R280, R281): CSR_RD, CSR_WR. -/

namespace Sys2Proof.Machine

/-- `CSR_RD` (R280). -/
def execCsrRd (addr : BitVec 12) (i : BitVec 8) (s : State) : Outcome :=
  match csrOf addr with
  | none => raiseIllegal 1 s
  | some r =>
    if r.unit = none ∧ i ≠ 0#8 then raiseIllegal 1 s
    else
      match csrValue r i s with
      | none => raiseBadHandle 1 s
      | some v => reply .ok [v] s

/-- `CSR_WR` (R281): only STATUS, with instance 0, is writable. -/
def execCsrWr (addr : BitVec 12) (i : BitVec 8) (value : Word) (s : State) : Outcome :=
  if csrOf addr = some .status ∧ i = 0#8 then reply .ok [] (s.clearStatus value)
  else raiseIllegal 0 s

end Sys2Proof.Machine
end

