-- ==== Sys2Proof/Machine/DelayLine.lean ====
section
/-! DEFINITION. The delay line (41_delay.md R140 to R142): DLY_APPLY. -/

namespace Sys2Proof.Machine

/-- The entry read (R141): `BUF[(WP - D) mod C]`, with the mathematical remainder of R8. -/
def delayRead (d : Delay) (off : Int) (cap : Nat) : B32 :=
  d.buf.getD (((d.wp : Int) - off) % (cap : Int)).toNat zero32

/-- One sample through the delay (R141): read first, then write the mix with the feedback at `WP`, then
move `WP`. -/
def delayStep (u : NumUnit) (d : Delay) (off : Int) (cap : Nat) (x fb : B32) : Delay × B32 :=
  let y := delayRead d off cap
  (⟨d.buf.set d.wp (fadd u x (fmul u y fb)), (d.wp + 1) % cap⟩, y)

/-- The delay line after a violation (R141): every entry and `WP` in `[0, C)` are free values. -/
def anyDelay (cap : Nat) (s : State) : Delay := ⟨s.anyWords cap, (s.anyWord cap).toNat % cap⟩

/-- `DLY_APPLY` (R141). -/
def execDlyApply (i : BitVec 8) (sample delay feedback : B32) (s : State) : Outcome :=
  match unitAt s.cfg.nDelay s.dly i with
  | none => raiseBadHandle 1 s
  | some d =>
    let cap := s.cfg.dlyCap.getD i.toNat 0
    let dr := delayRaw s.cfg delay
    if delayPreOk dr feedback cap then
      let (d', y) := delayStep s.cfg.num d (truncInt dr) cap sample feedback
      reply .ok [y] (s.setDly i.toNat d')
    else
      replyPrecond [s.anyWord (cap + 1)] ((s.setDly i.toNat (anyDelay cap s)).skipDraws (cap + 2))

end Sys2Proof.Machine
end

