-- ==== Sys2Proof/Machine/Envelope.lean ====
section
/-! DEFINITION. The envelope units (44_envelope.md R220 to R230): LINE_SET, LINE_RST, LINE_ADV, ADSR_SET,
ADSR_RST, ADSR_ADV, MIX, CLAMP. -/

namespace Sys2Proof.Machine

/-- `mix(a, b, t)` (R222), in its operation order. -/
def mixValue (u : NumUnit) (a b t : B32) : B32 :=
  fadd u (fmul u a (fsub u one32 t)) (fmul u b t)

/-- `seg_adv` (R221): the segment, the value and the done bit. -/
def segAdv (u : NumUnit) (l : Line) : Line × B32 × Bool :=
  let rem := if l.rem = 0#32 then 0#32 else l.rem - 1#32
  let l' := { l with rem := rem }
  if rem = 0#32 then (l', l.stop, true)
  else
    let k := l.ntot.toNat - rem.toNat
    (l', mixValue u l.start l.stop (fdiv u (toB32 k) (toB32 l.ntot.toNat)), false)

/-- A segment set to a length, start and end, its counter full (R223, R226). -/
def lineSetTo (n : Word) (start stop : B32) : Line := ⟨n, n, start, stop⟩

/-- A segment whose length has no sample count (R223, R226): `NTOT`, and `REM` in `[0, NTOT]`, are free
values. -/
def anyLine (start stop : B32) (s : State) : Line :=
  let n := s.anyWord 0
  ⟨n, BitVec.ofNat 32 ((s.anyWord 1).toNat % (n.toNat + 1)), start, stop⟩

/-- A segment restarted: the counter only (R225). -/
def lineRestart (l : Line) : Line := { l with rem := l.ntot }

/-- `LINE_SET` (R223). -/
def execLineSet (j : BitVec 8) (len start stop : B32) (s : State) : Outcome :=
  match unitAt s.cfg.nLine s.line j with
  | none => raiseBadHandle 0 s
  | some _ =>
    match segLen s.cfg len with
    | some n => reply .ok [] (s.setLine j.toNat (lineSetTo n start stop))
    | none => replyPrecond [] ((s.setLine j.toNat (anyLine start stop s)).skipDraws 2)

/-- `LINE_RST` (R225). -/
def execLineRst (j : BitVec 8) (s : State) : Outcome :=
  match unitAt s.cfg.nLine s.line j with
  | none => raiseBadHandle 0 s
  | some l => reply .ok [] (s.setLine j.toNat (lineRestart l))

/-- `LINE_ADV` (R224). -/
def execLineAdv (j : BitVec 8) (s : State) : Outcome :=
  match unitAt s.cfg.nLine s.line j with
  | none => raiseBadHandle 2 s
  | some l =>
    let (l', v, d) := segAdv s.cfg.num l
    reply .ok [v, doneWord d] (s.setLine j.toNat l')

/-- The segment of an ADSR unit that `SEG` names, replaced (R226). -/
def Adsr.setSegment (a : Adsr) (seg : Segment) (l : Line) : Adsr :=
  match seg with
  | .attack => { a with atk := l }
  | .release => { a with rel := l }

/-- `ADSR_SET` (R226): `PH` is not changed. -/
def execAdsrSet (e : BitVec 8) (seg : Segment) (len start stop : B32) (s : State) : Outcome :=
  match unitAt s.cfg.nAdsr s.adsr e with
  | none => raiseBadHandle 0 s
  | some a =>
    match segLen s.cfg len with
    | some n => reply .ok [] (s.setAdsr e.toNat (a.setSegment seg (lineSetTo n start stop)))
    | none =>
      replyPrecond [] ((s.setAdsr e.toNat (a.setSegment seg (anyLine start stop s))).skipDraws 2)

/-- `ADSR_RST` (R227). -/
def execAdsrRst (e : BitVec 8) (s : State) : Outcome :=
  match unitAt s.cfg.nAdsr s.adsr e with
  | none => raiseBadHandle 0 s
  | some a => reply .ok [] (s.setAdsr e.toNat ⟨lineRestart a.atk, lineRestart a.rel, .attack⟩)

/-- A step in RELEASE (R228). -/
def adsrRelease (u : NumUnit) (a : Adsr) : Adsr × B32 × Bool :=
  let (l, v, d) := segAdv u a.rel
  ({ a with rel := l, ph := if d then .done else .release }, v, d)

/-- One advance of an ADSR unit (R228): a trigger in ATTACK or SUSTAIN is already the first step of the
release. -/
def adsrStep (u : NumUnit) (a : Adsr) (trig : Bool) : Adsr × B32 × Bool :=
  match a.ph with
  | .attack =>
    if trig then adsrRelease u a
    else
      let (l, v, d) := segAdv u a.atk
      ({ a with atk := l, ph := if d then .sustain else .attack }, v, false)
  | .sustain => if trig then adsrRelease u a else (a, a.atk.stop, false)
  | .release => adsrRelease u a
  | .done => (a, a.rel.stop, true)

/-- `ADSR_ADV` (R228). -/
def execAdsrAdv (e : BitVec 8) (trig : Bool) (s : State) : Outcome :=
  match unitAt s.cfg.nAdsr s.adsr e with
  | none => raiseBadHandle 2 s
  | some a =>
    let (a', v, d) := adsrStep s.cfg.num a trig
    reply .ok [v, doneWord d] (s.setAdsr e.toNat a')

/-- `MIX` (R229). -/
def execMix (a b t : B32) (s : State) : Outcome := reply .ok [mixValue s.cfg.num a b t] s

/-- The clamp of R230: below `lo` first, then above `hi`. -/
def clampValue (x lo hi : B32) : B32 := if flt x lo then lo else if flt hi x then hi else x

/-- `CLAMP` (R230). -/
def execClamp (x lo hi : B32) (s : State) : Outcome := reply .ok [clampValue x lo hi] s

end Sys2Proof.Machine
end

