-- ==== Sys2Proof/Machine/Trig.lean ====
section
/-! DEFINITION. The sine of 00_scope.md R5, the twiddle factors of 43_spectral.md R183 and the default
window of R182. Sines and cosines are computed on integers scaled by 2^400 and rounded once. That the
400 bits always suffice for the nearest value is UNVERIFIED (log 10). -/

namespace Sys2Proof.Machine

/-- The scale of the fixed-point values: 2^400. -/
def trigScale : Nat := 2 ^ 400

/-- π scaled by 2^400, rounded down. -/
def piScaled : Nat :=
  0x3243F6A8885A308D313198A2E03707344A4093822299F31D0082EFA98EC4E6C89452821E638D01377BE5466CF34E90C6CC0AC

/-- The alternating Taylor series from a term on: each next term is the last times `-r²` over
`k(k+1)`. -/
def taylor (r2 : Int) : Nat → Nat → Int → Int → Int
  | 0, _, _, acc => acc
  | fuel + 1, k, term, acc =>
    let next := -(term * r2 / ((trigScale * (k * (k + 1)) : Nat) : Int))
    taylor r2 fuel (k + 2) next (acc + next)

/-- The sine of a scaled angle. -/
def sinScaled (r : Int) : Int := taylor (r * r / (trigScale : Int)) 70 2 r r

/-- The cosine of a scaled angle. -/
def cosScaled (r : Int) : Int := taylor (r * r / (trigScale : Int)) 70 1 trigScale trigScale

/-- A scaled value rounded once to `b32`. -/
def roundScaled (v : Int) : B32 := roundQ (decide (v < 0)) (v.natAbs * unitScale) trigScale

/-- The sine of a `b32` value, rounded once: zeros are kept, a finite value is reduced modulo 2π. -/
def sineRounded (x : B32) : B32 :=
  if isNaN x || isInf x then nanResult .sine x x
  else if magBits x = 0 then x
  else
    let r := scaled x * ((trigScale / unitScale : Nat) : Int)
    roundScaled (sinScaled (if mag x < 3 * unitScale then r else r % ((2 * piScaled : Nat) : Int)))

/-- `sin32` (R5, R9). -/
def sin32 (u : SineUnit) (x : B32) : B32 :=
  match u with
  | .correctlyRounded => sineRounded x
  | .custom => Config.customSine x

/-- The angle `2πk/L`, scaled. -/
def angleScaled (l k : Nat) : Int := ((2 * piScaled * k / l : Nat) : Int)

/-- `RN32(cos θ_k)` for `k < L/2` (R183), an exact zero stored as `+0.0`. -/
def twiddleCos (l k : Nat) : B32 :=
  if k = 0 then one32
  else if 4 * k = l then zero32
  else roundScaled (cosScaled (angleScaled l k))

/-- `RN32(sin θ_k)` for `k < L/2` (R183), an exact zero stored as `+0.0`. -/
def twiddleSin (l k : Nat) : B32 :=
  if k = 0 then zero32
  else if 4 * k = l then one32
  else roundScaled (sinScaled (angleScaled l k))

/-- The default analysis window of R182, the periodic Hann window of length `l`. -/
def hannWindow (l : Nat) : List B32 :=
  (List.range l).map fun m =>
    if m = 0 then zero32
    else roundScaled (((trigScale : Int) - cosScaled (angleScaled l m)) / 2)

end Sys2Proof.Machine
end

