-- ==== Sys2Proof/Machine/Generators.lean ====
section
/-! DEFINITION. The generator table (40_generators.md R110 to R116): GEN_REG, GEN_REL, GEN_ADV, GEN_RD. -/

namespace Sys2Proof.Machine

/-- One advance of a Sine slot (R111). -/
def sineStep (c : Config) (g : GenSlot) : GenSlot :=
  let inc := fdiv c.num (fmul c.num twoPi32 g.freq) (srF c)
  { g with out := sin32 c.sine g.ph, ph := fmod32 (fadd c.num g.ph inc) twoPi32 }

/-- One advance of a Phasor slot (R112); the comparison with 1.0 is strict. -/
def phasorStep (c : Config) (g : GenSlot) : GenSlot :=
  let p := fadd c.num g.ph (fdiv c.num g.freq (srF c))
  { g with out := g.ph, ph := if flt one32 p then fsub c.num p one32 else p }

/-- One advance of a slot (R115): a Free slot is untouched. -/
def genStep (c : Config) (g : GenSlot) : GenSlot :=
  match g.kind with
  | .free => g
  | .sine => sineStep c g
  | .phasor => phasorStep c g

/-- The smallest index of a Free slot (R113). -/
def firstFree (gs : List GenSlot) : Option Nat := gs.findIdx? (fun g => g.kind == .free)

/-- The new slot of a GEN_REG whose frequency breaks R110 (R83, R302, and 93_implementation_defined.md U3):
every field is a free value, but the slot is registered (R113), so it is a Sine or a Phasor (log 7). -/
def anySlot (s : State) : GenSlot :=
  ⟨if (s.anyWord 0).getLsbD 0 then .sine else .phasor, s.anyWord 1, s.anyWord 2, s.anyWord 3⟩

/-- `GEN_REG` (R113). -/
def execGenReg (type : BitVec 2) (freq : B32) (s : State) : Outcome :=
  match genKindOf type with
  | none => raiseIllegal 1 s
  | some kind =>
    match firstFree s.gen with
    | none => raiseExhausted s
    | some h =>
      if freqOk s.cfg freq then
        reply .ok [BitVec.ofNat 32 h] (s.setGen h ⟨kind, freq, zero32, zero32⟩)
      else replyPrecond [BitVec.ofNat 32 h] ((s.setGen h (anySlot s)).skipDraws 4)

/-- `GEN_REL` (R114). -/
def execGenRel (h : BitVec 8) (s : State) : Outcome :=
  match s.liveGen h with
  | none => raiseBadHandle 0 s
  | some _ => reply .ok [] (s.setGen h.toNat GenSlot.free)

/-- `GEN_ADV` (R115). No step reads another slot, so the order is not observable. -/
def execGenAdv (s : State) : Outcome := reply .ok [] (s.setGens (s.gen.map (genStep s.cfg)))

/-- `GEN_RD` (R116). -/
def execGenRd (h : BitVec 8) (s : State) : Outcome :=
  match s.liveGen h with
  | none => raiseBadHandle 1 s
  | some g => reply .ok [g.out] s

end Sys2Proof.Machine
end

