-- ==== Sys2Proof/Machine/Mixer.lean ====
section
/-! DEFINITION. The track mixer and quantizer (45_mixer.md R260 to R263): TRK_WR, MIX_PERIOD, OUT_RD. -/

namespace Sys2Proof.Machine

/-- One channel of a track entry (R30). -/
def Stereo.get (e : Stereo) : Channel → B32
  | .left => e.left
  | .right => e.right

/-- A track entry with one channel replaced (R260). -/
def Stereo.set (e : Stereo) (ch : Channel) (v : B32) : Stereo :=
  match ch with
  | .left => { e with left := v }
  | .right => { e with right := v }

/-- `TRK[t][k][c]` of a track buffer (R30). -/
def trackEntry (b : List Stereo) (k : Nat) : Stereo := b.getD k ⟨zero32, zero32⟩

/-- `quant` (R261); none is OUT_OF_RANGE. -/
def quant (c : Config) (v : B32) : Option Sample :=
  let p := fmul c.num v (toB32 c.fs)
  if isNaN p || fle p (toB32 (-32769)) || fle (toB32 32768) p then none
  else some (BitVec.ofInt 16 (truncInt p))

/-- The accumulator of R262: the tracks in ascending order, from `+0.0`. -/
def mixAcc (u : NumUnit) (trk : List (List Stereo)) (k : Nat) (ch : Channel) : B32 :=
  trk.foldl (fun acc b => fadd u acc ((trackEntry b k).get ch)) zero32

/-- Sample `k` and channel of the `p`-th sample of the frame: left then right, in sample order (R61). -/
def frameChannel (p : Nat) : Channel := if p % 2 = 0 then .left else .right

/-- The quantized samples of the frame in its order, none where out of range (R262). -/
def mixFrame (c : Config) (trk : List (List Stereo)) : List (Option Sample) :=
  (List.range (2 * c.frameLen)).map fun p => quant c (mixAcc c.num trk (p / 2) (frameChannel p))

/-- The samples `MIX_PERIOD` writes (R262): a free value where the sample is out of range, and
everywhere once POISON is set (R11). -/
def writtenFrame (s : State) : List Sample :=
  (mixFrame s.cfg s.trk).mapIdx fun p q =>
    if s.poison then (s.anyWord p).setWidth 16 else q.getD ((s.anyWord p).setWidth 16)

/-- `TRK_WR` (R260). -/
def execTrkWr (t : BitVec 8) (k : BitVec 11) (ch : Channel) (value : B32) (s : State) : Outcome :=
  match unitAt s.cfg.nTracks s.trk t with
  | none => raiseBadHandle 0 s
  | some b =>
    if k.toNat < s.cfg.frameLen then
      reply .ok [] (s.setTrk t.toNat (b.set k.toNat ((trackEntry b k.toNat).set ch value)))
    else raiseBadHandle 0 s

/-- `MIX_PERIOD` (R262). -/
def execMixPeriod (s : State) : Outcome :=
  let s' := ((s.setFrame (Memory.fromBytes 0 ((writtenFrame s).flatMap sampleBytes))).setTrks
    (List.replicate s.cfg.nTracks (silentTrack s.cfg.frameLen))).skipDraws (2 * s.cfg.frameLen)
  if (mixFrame s.cfg s.trk).any Option.isNone then raise .range [] s'
  else reply .ok [] s'

/-- `OUT_RD` (R263): left in bits 15:0, right in bits 31:16. -/
def execOutRd (k : BitVec 11) (s : State) : Outcome :=
  if k.toNat < s.cfg.frameLen then
    reply .ok [s.mem.sample k.toNat 1 ++ s.mem.sample k.toNat 0] s
  else raiseBadHandle 1 s

end Sys2Proof.Machine
end

