-- ==== Sys2Proof/Machine/ReverbBlock.lean ====
section
/-! DEFINITION. The reverb block (42_reverb.md R160 to R165): RVB_CFG, RVB_APPLY. -/

namespace Sys2Proof.Machine

/-- One sample through the reverb, for a kernel (R163): drain, accumulate, and run the kernel when the
chunk is full, with the parameters latched from the shadow copy. -/
def reverbStep (kernel : RvbKernel) (r : Reverb) (x : B32) : Reverb × B32 :=
  let y := r.out[r.ridx]
  let inp := r.inp.set r.ridx x
  if r.ridx = 31 then
    let (out, kst) := kernel r.shadow r.kst inp
    ({ r with inp := inp, out := out, kst := kst, active := r.shadow, ridx := 0 }, y)
  else ({ r with inp := inp, ridx := r.ridx + 1 }, y)

/-- `RVB_CFG` (R162): the shadow copy only. -/
def execRvbCfg (i : BitVec 8) (wet decay room cutoff predelay : B32) (s : State) : Outcome :=
  match unitAt s.cfg.nReverb s.rvb i with
  | none => raiseBadHandle 0 s
  | some r =>
    reply .ok [] (s.setRvb i.toNat { r with shadow := ⟨wet, decay, room, cutoff, predelay⟩ })

/-- `RVB_APPLY` (R163). -/
def execRvbApply (i : BitVec 8) (sample : B32) (s : State) : Outcome :=
  match unitAt s.cfg.nReverb s.rvb i with
  | none => raiseBadHandle 1 s
  | some r =>
    let (r', y) := reverbStep s.cfg.kernel r sample
    reply .ok [y] (s.setRvb i.toNat r')

end Sys2Proof.Machine
end

