-- ==== Sys2Proof/Machine/SpectralUnit.lean ====
section
/-! DEFINITION. The spectral processor (43_spectral.md R180 to R187): the complex arithmetic, the transform
datapath, and FFT_IN, FFT_OUT, FFT_SHIFT. -/

namespace Sys2Proof.Machine

/-- `cadd` (R181). -/
def cadd (u : NumUnit) (a b : Cpx) : Cpx := ⟨fadd u a.re b.re, fadd u a.im b.im⟩

/-- `csub` (R181). -/
def csub (u : NumUnit) (a b : Cpx) : Cpx := ⟨fsub u a.re b.re, fsub u a.im b.im⟩

/-- `cmul` (R181). -/
def cmul (u : NumUnit) (w b : Cpx) : Cpx :=
  ⟨fsub u (fmul u w.re b.re) (fmul u w.im b.im), fadd u (fmul u w.re b.im) (fmul u w.im b.re)⟩

/-- `cscale` (R181). -/
def cscale (u : NumUnit) (z : Cpx) (k : B32) : Cpx := ⟨fmul u z.re k, fmul u z.im k⟩

/-- `conj` (R181): the sign of the imaginary part flips, zeros included. -/
def conj (z : Cpx) : Cpx := ⟨z.re, fneg z.im⟩

/-- `-x` of a table entry, an exact zero kept as `+0.0` (R183). -/
def negEntry (x : B32) : B32 := if x = zero32 then zero32 else fneg x

/-- `TWF[k]` (R183). -/
def twf (l k : Nat) : Cpx := ⟨twiddleCos l k, negEntry (twiddleSin l k)⟩

/-- `TWI[k]` (R183). -/
def twi (l k : Nat) : Cpx := ⟨twiddleCos l k, twiddleSin l k⟩

/-- `bitrev` of the low `n` bits (R184). -/
def bitrev : Nat → Nat → Nat
  | 0, _ => 0
  | n + 1, m => m % 2 * 2 ^ n + bitrev n (m / 2)

/-- `A[bitrev(m)] <- a[m]` for every `m` (R184). -/
def bitrevList (l : Nat) (a : List Cpx) : List Cpx :=
  (List.range l).foldl
    (fun acc m => acc.set (bitrev (Nat.log2 l) m) (a.getD m Cpx.zero)) (List.replicate l Cpx.zero)

/-- One butterfly (R184): the entries at `p` and `p + h`, with twiddle `w`. -/
def butterfly (u : NumUnit) (w : Cpx) (h p : Nat) (a : List Cpx) : List Cpx :=
  let t := cmul u w (a.getD (p + h) Cpx.zero)
  let v := a.getD p Cpx.zero
  (a.set p (cadd u v t)).set (p + h) (csub u v t)

/-- One stage of span `st = 2h` (R184): every block `k0`, every `j` in it. -/
def fftStage (u : NumUnit) (tw : Nat → Cpx) (l st : Nat) (a : List Cpx) : List Cpx :=
  let h := st / 2
  (List.range (l / st)).foldl
    (fun acc b =>
      (List.range h).foldl (fun acc j => butterfly u (tw (j * (l / st))) h (b * st + j) acc) acc) a

/-- `xfft` (R184): bit reversal, then the stages of span 2, 4, …, L. -/
def xfft (u : NumUnit) (tw : Nat → Cpx) (l : Nat) (a : List Cpx) : List Cpx :=
  (List.range (Nat.log2 l)).foldl (fun acc q => fftStage u tw l (2 ^ (q + 1)) acc) (bitrevList l a)

/-- `FFTF` (R184), unscaled. -/
def fftForward (u : NumUnit) (l : Nat) (a : List Cpx) : List Cpx := xfft u (twf l) l a

/-- `INV_L` (R184): `1/L`, exact because `L` is a power of two. -/
def invL (l : Nat) : B32 := roundQ false unitScale l

/-- `FFTI` (R184), scaled by `1/L`. -/
def fftInverse (u : NumUnit) (l : Nat) (a : List Cpx) : List Cpx :=
  (xfft u (twi l) l a).map fun z => cscale u z (invL l)

/-- The windowed frame of R185: the previous frame's samples, then the current one's. -/
def windowedFrame (c : Config) (ovl cur : List B32) : List Cpx :=
  (List.range c.fftL).map fun m =>
    let x := if m < c.fftN then ovl.getD m zero32 else cur.getD (m - c.fftN) zero32
    ⟨fmul c.num (c.fftWindow.getD m zero32) x, zero32⟩

/-- One sample into the analysis (R185). -/
def spectralIn (c : Config) (f : Spectral) (x : B32) : Spectral :=
  let cur := f.cur.set f.sidx x
  if f.sidx = c.fftN - 1 then
    let spectrum := fftForward c.num c.fftL (windowedFrame c f.ovl cur)
    { f with
      cur := cur, work := spectrum, pers := spectrum, ovl := cur
      stage := true, sidx := 0, ready := true }
  else { f with cur := cur, sidx := f.sidx + 1 }

/-- Takes a waiting frame (R186): its inverse transform, overlap-added with the last one's tail. -/
def spectralTake (c : Config) (f : Spectral) : Spectral :=
  if f.ready then
    let y := fftInverse c.num c.fftL f.pers
    { f with
      olaOut := (List.range c.fftN).map fun m =>
        fadd c.num (y.getD m Cpx.zero).re (f.olaTail.getD m zero32)
      olaTail := (List.range c.fftN).map fun m => (y.getD (c.fftN + m) Cpx.zero).re
      oidx := 0
      ready := false }
  else f

/-- One sample out (R186): `+0.0` when nothing is left to drain. -/
def spectralOut (c : Config) (f : Spectral) : Spectral × B32 :=
  let g := spectralTake c f
  if g.oidx < c.fftN then ({ g with oidx := g.oidx + 1 }, g.olaOut.getD g.oidx zero32)
  else (g, zero32)

/-- Bin `k` of the gather of R187, for `k` in `0..N`. -/
def shiftedBin (c : Config) (pers : List Cpx) (factor : B32) (k : Nat) : Cpx :=
  let q := fdiv c.num (toB32 k) factor
  if isFinite q && decide (floorInt q ≤ c.fftN) then pers.getD (floorInt q).toNat Cpx.zero
  else Cpx.zero

/-- The remapped spectrum of R187: bins `0..N` gathered, bins `N+1..L-1` mirrored. -/
def shiftedSpectrum (c : Config) (pers : List Cpx) (factor : B32) : List Cpx :=
  (List.range c.fftL).map fun k =>
    if k ≤ c.fftN then shiftedBin c pers factor k
    else conj (shiftedBin c pers factor (c.fftL - k))

/-- A spectrum of free values (R187). -/
def anySpectrum (l : Nat) (s : State) : List Cpx :=
  (List.range l).map fun k => ⟨s.anyWord (2 * k), s.anyWord (2 * k + 1)⟩

/-- `FFT_IN` (R185). -/
def execFftIn (i : BitVec 8) (sample : B32) (s : State) : Outcome :=
  match unitAt s.cfg.nFft s.fft i with
  | none => raiseBadHandle 1 s
  | some f =>
    let f' := spectralIn s.cfg f sample
    reply .ok [f'.flags] (s.setFft i.toNat f')

/-- `FFT_OUT` (R186). -/
def execFftOut (i : BitVec 8) (s : State) : Outcome :=
  match unitAt s.cfg.nFft s.fft i with
  | none => raiseBadHandle 1 s
  | some f =>
    let (f', v) := spectralOut s.cfg f
    reply .ok [v] (s.setFft i.toNat f')

/-- `FFT_SHIFT` (R187). -/
def execFftShift (i : BitVec 8) (factor : B32) (s : State) : Outcome :=
  match unitAt s.cfg.nFft s.fft i with
  | none => raiseBadHandle 0 s
  | some f =>
    if flt zero32 factor then
      reply .ok [] (s.setFft i.toNat { f with pers := shiftedSpectrum s.cfg f.pers factor })
    else
      replyPrecond []
        ((s.setFft i.toNat { f with pers := anySpectrum s.cfg.fftL s }).skipDraws (2 * s.cfg.fftL))

end Sys2Proof.Machine
end

