-- ==== Sys2Proof/Machine/Dispatch.lean ====
section
/-! DEFINITION. The dispatch: each command to its meaning. -/

namespace Sys2Proof.Machine

def exec (i : Instr) (s : State) : Host.Outcome State Fault Refusal :=
  match i with
  | .genReg type freq => Sys2Proof.Machine.execGenReg type freq s
  | .genRel h => Sys2Proof.Machine.execGenRel h s
  | .genAdv => Sys2Proof.Machine.execGenAdv s
  | .genRd h => Sys2Proof.Machine.execGenRd h s
  | .dlyApply n sample delay feedback => Sys2Proof.Machine.execDlyApply n sample delay feedback s
  | .rvbCfg n wet decay room cutoff predelay => Sys2Proof.Machine.execRvbCfg n wet decay room cutoff predelay s
  | .rvbApply n sample => Sys2Proof.Machine.execRvbApply n sample s
  | .fftIn n sample => Sys2Proof.Machine.execFftIn n sample s
  | .fftOut n => Sys2Proof.Machine.execFftOut n s
  | .fftShift n factor => Sys2Proof.Machine.execFftShift n factor s
  | .lineSet j len start stop => Sys2Proof.Machine.execLineSet j len start stop s
  | .lineRst j => Sys2Proof.Machine.execLineRst j s
  | .lineAdv j => Sys2Proof.Machine.execLineAdv j s
  | .adsrSet e seg len start stop => Sys2Proof.Machine.execAdsrSet e seg len start stop s
  | .adsrRst e => Sys2Proof.Machine.execAdsrRst e s
  | .adsrAdv e trig => Sys2Proof.Machine.execAdsrAdv e trig s
  | .mix a b t => Sys2Proof.Machine.execMix a b t s
  | .clamp x lo hi => Sys2Proof.Machine.execClamp x lo hi s
  | .trkWr t k ch value => Sys2Proof.Machine.execTrkWr t k ch value s
  | .mixPeriod => Sys2Proof.Machine.execMixPeriod s
  | .outRd k => Sys2Proof.Machine.execOutRd k s
  | .csrRd addr n => Sys2Proof.Machine.execCsrRd addr n s
  | .csrWr addr n value => Sys2Proof.Machine.execCsrWr addr n value s

end Sys2Proof.Machine
end

