-- ==== Sys2Proof/Machine/Step.lean ====
section
/-! DEFINITION. One step of the block (60_exceptions.md R300): a configuration out of bounds has no block
(R6); otherwise the command at the front of the stream is taken once all its words have arrived (R87),
decoded (R85), and executed; one that does not decode is answered ILLEGAL. -/

namespace Sys2Proof.Machine

/-- A command taken from the stream, decoded and executed (R85, R300). -/
def runCommand (w0 : Word) (ops : List Word) (s : State) : Outcome :=
  match decode w0 ops with
  | .ok i => exec i s
  | .error _ => raiseIllegal (rlenOf (fieldOpc w0)) s

def step (s : State) : Host.Outcome State Fault Refusal :=
  if cfgValid s.cfg then
    match frame s.stream with
    | .empty => .fault .noCommand
    | .pending => .fault .operandsPending
    | .command w0 ops rest => runCommand w0 ops (s.consume rest)
  else .refused .badConfiguration

/-- The state with an instruction at the front of the command stream (log 2). -/
def State.withFetchWord (s : State) (nbits w : Nat) : State :=
  { s with stream := tableWords nbits w ++ s.stream }

end Sys2Proof.Machine
end

