-- ==== Sys2Proof/Machine/Sink.lean ====
section
/-! DEFINITION. What the agents outside the block do to it (60_exceptions.md R317 to R319): the host sends
words and asserts reset (70_reset_and_hazards.md R340), the audio sink reads the output frame buffer
through its port (20_memory.md R61, R63, R69). None of these is a step of the block. -/

namespace Sys2Proof.Machine

/-- The host sends words to the command port (R319). -/
def State.send (ws : List Word) (s : State) : State := { s with stream := s.stream ++ ws }

/-- The host asserts reset (R340, R341): every piece of state to its reset value, the parameters kept
(R342). Every outstanding sink read is overlapped (R341), and the draws go on (log 15). -/
def State.assertReset (s : State) : State :=
  { State.resetWith s.cfg with
    draws := s.draws
    sinkReads := s.sinkReads.map fun r => { r with raced := true } }

/-- The read port's checks (R61, R63): 1, 2 or 4 bytes, all inside the buffer. -/
def sinkCheck (s : State) (a n : Nat) : Option Fault :=
  if ¬(n = 1 ∨ n = 2 ∨ n = 4) then some .sinkBadSize
  else if 4 * s.cfg.frameLen < a + n then some .sinkOutsideBuffer
  else none

/-- The bytes the sink gets: the buffer's, or free values where the read was overlapped (R69) or POISON
is set (R11). -/
def sinkBytes (s : State) (a n : Nat) (raced : Bool) : List Byte :=
  if raced || s.poison then (List.range n).map fun k => Config.anySinkByte s.draws (a + k)
  else s.mem.readBytes a n

/-- `MemRead(a, n)` of a sink read that nothing overlaps (R10, R63): it has no side effect (R64). -/
def State.sinkRead (s : State) (a n : Nat) : Except Fault (List Byte) :=
  match sinkCheck s a n with
  | some f => .error f
  | none => .ok (sinkBytes s a n false)

/-- A sink read begins (R69). -/
def State.sinkBegin (s : State) (a n : Nat) : Except Fault State :=
  match sinkCheck s a n with
  | some f => .error f
  | none => .ok { s with sinkReads := s.sinkReads ++ [⟨a, n, false⟩] }

/-- The oldest sink read finishes, with its bytes (R69). An overlapped one uses up a draw. -/
def State.sinkEnd (s : State) : Except Fault (List Byte × State) :=
  match s.sinkReads with
  | [] => .error .sinkNoRead
  | r :: rest =>
    .ok (sinkBytes s r.addr r.size r.raced,
      { s with sinkReads := rest, draws := s.draws + (if r.raced then 1 else 0) })

/-- A byte list read little-endian as one number (R63). -/
def littleEndian : List Byte → Nat
  | [] => 0
  | b :: bs => b.toNat + 256 * littleEndian bs

end Sys2Proof.Machine
end

