-- ==== Sys2Proof/Safety.lean ====
section
/-! DEFINITION. What the statements rely on: the invariant of the block's state (the bounds of 10_state.md
and the shape of every array), and what makes a state's results specified (10_state.md R52). -/

namespace Sys2Proof.Machine

/-- The bounds of a delay line of capacity `cap` (R25). -/
structure Delay.Fits (d : Delay) (cap : Nat) : Prop where
  bufLength : d.buf.length = cap
  wpBound : d.wp < cap

/-- The bounds of a spectral processor of frame size `n` (R27). -/
structure Spectral.Fits (f : Spectral) (n : Nat) : Prop where
  curLength : f.cur.length = n
  ovlLength : f.ovl.length = n
  workLength : f.work.length = 2 * n
  persLength : f.pers.length = 2 * n
  olaOutLength : f.olaOut.length = n
  olaTailLength : f.olaTail.length = n
  sidxBound : f.sidx < n
  oidxBound : f.oidx ≤ n

/-- The bound of a line: `0 ≤ REM ≤ NTOT` (R28). -/
def Line.Fits (l : Line) : Prop := l.rem.toNat ≤ l.ntot.toNat

/-- Both segments of an ADSR unit are lines (R29). -/
def Adsr.Fits (a : Adsr) : Prop := a.atk.Fits ∧ a.rel.Fits

/-- The invariant of the state: legal parameters (R6), the number and shape of every unit's state (R23 to
R31), a Free slot's one value (R24), the canonical form and the extent of the output frame buffer
(R60, R65), and the reserved bits of STATUS (R41). -/
structure State.Inv (s : State) : Prop where
  cfg : cfgValid s.cfg = true
  genLength : s.gen.length = s.cfg.genCap
  genFree : ∀ g ∈ s.gen, g.kind = .free → g = GenSlot.free
  dlyLength : s.dly.length = s.cfg.nDelay
  dlyFits : ∀ (i : Nat) (d : Delay) (cap : Nat),
    s.dly[i]? = some d → s.cfg.dlyCap[i]? = some cap → d.Fits cap
  rvbLength : s.rvb.length = s.cfg.nReverb
  fftLength : s.fft.length = s.cfg.nFft
  fftFits : ∀ f ∈ s.fft, f.Fits s.cfg.fftN
  lineLength : s.line.length = s.cfg.nLine
  lineFits : ∀ l ∈ s.line, l.Fits
  adsrLength : s.adsr.length = s.cfg.nAdsr
  adsrFits : ∀ a ∈ s.adsr, a.Fits
  trkLength : s.trk.length = s.cfg.nTracks
  trkFits : ∀ b ∈ s.trk, b.length = s.cfg.frameLen
  memWf : s.mem.wf
  memInside : ∀ c ∈ s.mem, c.1 < 4 * s.cfg.frameLen
  statusReserved : s.status &&& ~~~statusMask = 0#32

/-- The state's later results are specified: no precondition was violated (R11, R52). -/
def State.Specified (s : State) : Prop := s.poison = false

/-- What a safe run keeps: the invariant, and results that the rules specify. -/
structure State.Safe (s : State) : Prop where
  inv : s.Inv
  specified : s.Specified

/-- The phase of an oscillator is in its range (R111, R117): a Sine's in `[0, TWO_PI32)`, a Phasor's and its
output in `[0, 1.0]`; its frequency meets R110. From `SR = 2^125` on, R111's product `2π·f` can overflow to
infinity, whose remainder is a NaN, so nothing is said of a Sine's phase there. -/
def GenSlot.InRange (c : Config) (g : GenSlot) : Prop :=
  match g.kind with
  | .free => True
  | .sine =>
    freqOk c g.freq = true ∧
      (c.sr < 2 ^ 125 → fle zero32 g.ph = true ∧ flt g.ph twoPi32 = true)
  | .phasor =>
    freqOk c g.freq = true ∧ fle zero32 g.ph = true ∧ fle g.ph one32 = true ∧
      fle zero32 g.out = true ∧ fle g.out one32 = true

end Sys2Proof.Machine
end

