-- ==== Sys2Proof/WellFormed.lean ====
section
/-! DEFINITION. Which commands pass the field checks of 30_encoding.md R85 step 4: an illegal `TYPE`
(R82), and a CSR address that is unmapped, not writable, or global with a nonzero instance (10_state.md
R49, R50). Steps 1 to 3 are the decoder's; the meanings answer `ILLEGAL` for a command that fails
step 4 (log 13). -/

namespace Sys2Proof

/-- Sine and Phasor are the only legal values of `TYPE` (R82). -/
def WellFormed.type (t : BitVec 2) : Bool := t == 1#2 || t == 2#2

/-- A readable register, with instance 0 where it is global (R49, R50). -/
def WellFormed.csrRead (a : BitVec 12) (i : BitVec 8) : Bool :=
  match Machine.csrOf a with
  | none => false
  | some r => r.unit.isSome || i == 0#8

/-- Only `STATUS`, with instance 0, is writable (R49, R281). -/
def WellFormed.csrWrite (a : BitVec 12) (i : BitVec 8) : Bool :=
  Machine.csrOf a == some .status && i == 0#8

/-- A command whose fields pass R85 step 4. -/
def WellFormed : Instr → Bool
  | .genReg type _ => WellFormed.type type
  | .csrRd addr i => WellFormed.csrRead addr i
  | .csrWr addr i _ => WellFormed.csrWrite addr i
  | .genRel _ | .genAdv | .genRd _ | .dlyApply .. | .rvbCfg .. | .rvbApply .. | .fftIn ..
  | .fftOut _ | .fftShift .. | .lineSet .. | .lineRst _ | .lineAdv _ | .adsrSet .. | .adsrRst _
  | .adsrAdv .. | .mix .. | .clamp .. | .trkWr .. | .mixPeriod | .outRd _ => true

end Sys2Proof
end

