-- ==== Sys2Proof/Certificates/Slice0/Obligations.lean ====
section
/-! DEFINITION. The statements about the block, for the provers. Every statement holds for every
configuration the state carries (log 1), every free value (log 5) and, where a result is a data word,
whether or not POISON is set: State.respond is what ResponseCarriesFreeWordsOncePoisoned says. -/

open Sys2Proof Sys2Proof.Machine

/-! ## Reset -/

/-- R341: every piece of state and its reset value, for every configuration. -/
def Obligations.ResetLeavesEveryValue : Prop :=
  ∀ c : Config,
    (State.resetWith c).cfg = c ∧ (State.resetWith c).pc = 0 ∧
    (State.resetWith c).stream = [] ∧ (State.resetWith c).responses = [] ∧
    (State.resetWith c).status = 0#32 ∧ (State.resetWith c).poison = false ∧
    (State.resetWith c).gen.length = c.genCap ∧
    (∀ g ∈ (State.resetWith c).gen,
      g.kind = .free ∧ g.freq = 0#32 ∧ g.ph = 0#32 ∧ g.out = 0#32) ∧
    (State.resetWith c).dly.length = c.nDelay ∧
    (∀ (i cap : Nat), c.dlyCap[i]? = some cap →
      (State.resetWith c).dly[i]? = some ⟨List.replicate cap 0#32, 0⟩) ∧
    (State.resetWith c).rvb.length = c.nReverb ∧
    (∀ r ∈ (State.resetWith c).rvb,
      (∀ k : Fin 32, r.inp[k] = 0#32 ∧ r.out[k] = 0#32) ∧ r.ridx = 0 ∧
      r.shadow = ⟨0#32, 0#32, 0#32, 0#32, 0#32⟩ ∧ r.active = ⟨0#32, 0#32, 0#32, 0#32, 0#32⟩ ∧
      r.kst = c.rvbState0) ∧
    (State.resetWith c).fft.length = c.nFft ∧
    (∀ f ∈ (State.resetWith c).fft,
      f.cur = List.replicate c.fftN 0#32 ∧ f.ovl = List.replicate c.fftN 0#32 ∧
      f.olaOut = List.replicate c.fftN 0#32 ∧ f.olaTail = List.replicate c.fftN 0#32 ∧
      f.work = List.replicate (2 * c.fftN) ⟨0#32, 0#32⟩ ∧
      f.pers = List.replicate (2 * c.fftN) ⟨0#32, 0#32⟩ ∧
      f.sidx = 0 ∧ f.oidx = c.fftN ∧ f.stage = false ∧ f.ready = false) ∧
    (State.resetWith c).line = List.replicate c.nLine ⟨0#32, 0#32, 0#32, 0#32⟩ ∧
    (State.resetWith c).adsr =
      List.replicate c.nAdsr ⟨⟨0#32, 0#32, 0#32, 0#32⟩, ⟨0#32, 0#32, 0#32, 0#32⟩, .attack⟩ ∧
    (State.resetWith c).trk =
      List.replicate c.nTracks (List.replicate c.frameLen ⟨0#32, 0#32⟩) ∧
    (∀ k ch : Nat, (State.resetWith c).mem.sample k ch = 0#16)

/-- R340, R341, R342: asserting reset in any state gives the reset state of the same parameters, but for
the model's own records (the draw index goes on, and every outstanding sink read is overlapped: log 15). -/
def Obligations.AssertResetRestoresEveryValue : Prop :=
  ∀ s : State,
    { s.assertReset with draws := 0, sinkReads := [] } = State.resetWith s.cfg ∧
    s.assertReset.draws = s.draws ∧
    s.assertReset.sinkReads.length = s.sinkReads.length ∧
    (∀ r ∈ s.assertReset.sinkReads, r.raced = true) ∧
    (cfgValid s.cfg = true → s.assertReset.Safe)

/-- The reset state of every legal configuration meets the invariant, `State.reset` among them (its
parameters are the model's choice, log 1). -/
def Obligations.ResetMeetsTheInvariant : Prop :=
  (∀ c : Config, cfgValid c = true → (State.resetWith c).Safe) ∧ State.reset.Safe

/-- Every step keeps the invariant: the shape and bounds of every unit's state, the value of a Free slot,
the canonical form and extent of the output frame buffer, and the reserved bits of STATUS. -/
def Obligations.StepKeepsTheInvariant : Prop :=
  ∀ s t : State, s.Inv → step s = .next t → t.Inv

/-! ## Decoding -/

/-- Decoding the words of any command gives the command, whatever words follow it. -/
def Obligations.DecodeOfEncodeIsTheCommand : Prop :=
  ∀ (i : Instr) (rest : List Word),
    frame (encode i ++ rest) = .command i.w0 i.operands rest ∧
    decode i.w0 i.operands = .ok i ∧ decodeWords (encode i) = some i

/-- Words that decode are the words of the command they decode to: no bit of an accepted command is
ignored. -/
def Obligations.EncodeOfDecodeIsTheWords : Prop :=
  ∀ (w0 : Word) (ops : List Word) (i : Instr), decode w0 ops = .ok i → encode i = w0 :: ops

/-- R90: the ten encoding examples. -/
def Obligations.EncodingExamplesDecode : Prop :=
  decodeWords [0x10010001#32, 0x43DC0000#32] = some (.genReg 1#2 0x43DC0000#32) ∧
  decodeWords [0x10020001#32, 0x40000000#32] = some (.genReg 2#2 0x40000000#32) ∧
  decodeWords [0x00000003#32] = some .genAdv ∧
  decodeWords [0x00000304#32] = some (.genRd 3#8) ∧
  decodeWords [0x30000010#32, 0x3F800000#32, 0x3E800000#32, 0x3F000000#32] =
    some (.dlyApply 0#8 0x3F800000#32 0x3E800000#32 0x3F000000#32) ∧
  decodeWords [0x18050160#32, 0x3F000000#32] = some (.trkWr 1#8 5#11 .right 0x3F000000#32) ∧
  decodeWords [0x00020062#32] = some (.outRd 2#11) ∧
  decodeWords [0x01010070#32] = some (.csrRd 0x101#12 0#8) ∧
  decodeWords [0x10000071#32, 0x0000001F#32] = some (.csrWr 0x000#12 0#8 0x0000001F#32) ∧
  decodeWords [0x0001004A#32] = some (.adsrAdv 0#8 true)

/-- R86: the opcodes outside R84's map are 233, and every command with one is answered ILLEGAL without
data words, changing nothing else but STATUS.ILL. -/
def Obligations.UnassignedOpcodesAreIllegal : Prop :=
  ((List.range 256).filter fun k => (opRow (BitVec.ofNat 8 k)).isNone).length = 233 ∧
  ∀ (s : State) (w0 : Word) (ops : List Word),
    opRow (fieldOpc w0) = none →
    decode w0 ops = .error .unknownOpcode ∧
    runCommand w0 ops s =
      .next (State.respond .illegal [] { s with status := s.status ||| 0x01#32 })

/-- R85 steps 2 and 3: an assigned opcode with another `LEN`, a nonzero `IDX` where the map says 0, or an
`IMM` bit set that R82 does not list, is answered ILLEGAL with the opcode's data words all 0. -/
def Obligations.WrongLengthOrReservedBitIsIllegal : Prop :=
  ∀ (s : State) (w0 : Word) (ops : List Word) (r : OpRow),
    opRow (fieldOpc w0) = some r →
    (fieldLen w0 ≠ r.len ∨ (r.idxZero = true ∧ fieldIdx w0 ≠ 0#8) ∨
      fieldImm w0 &&& ~~~r.immMask ≠ 0#12) →
    runCommand w0 ops s =
      .next (State.respond .illegal (List.replicate r.rlen 0#32)
        { s with status := s.status ||| 0x01#32 })

/-! ## The step -/

/-- A step runs the decoded command: when the words at the front of the stream decode to a command, the
step is the command's meaning on the state with those words taken and the pc moved by one. -/
def Obligations.StepRunsTheDecodedCommand : Prop :=
  ∀ (s : State) (w0 : Word) (ops rest : List Word) (i : Instr),
    cfgValid s.cfg = true → s.stream = w0 :: (ops ++ rest) → ops.length = (fieldLen w0).toNat →
    decode w0 ops = .ok i →
    step s = exec i { s with pc := s.pc + 1, stream := rest }

/-- Where the words at the front of the stream do not decode, the step takes them, moves the pc by one and
answers ILLEGAL with the opcode's data words all 0. -/
def Obligations.StepAnswersIllegalWhereDecodingFails : Prop :=
  ∀ (s : State) (w0 : Word) (ops rest : List Word) (e : DecodeError),
    cfgValid s.cfg = true → s.stream = w0 :: (ops ++ rest) → ops.length = (fieldLen w0).toNat →
    decode w0 ops = .error e →
    step s = .next (State.respond .illegal (List.replicate (rlenOf (fieldOpc w0)) 0#32)
      { s with pc := s.pc + 1, stream := rest, status := s.status ||| 0x01#32 })

/-- R87, R346: with no word at the port the run has ended, and a command whose operand words have not all
arrived is not executed: the machine is stuck, by name (log 3). -/
def Obligations.IncompleteCommandsAreStuck : Prop :=
  (∀ s : State, cfgValid s.cfg = true → s.stream = [] → step s = .fault .noCommand) ∧
  (∀ (s : State) (w0 : Word) (rest : List Word), cfgValid s.cfg = true → s.stream = w0 :: rest →
    rest.length < (fieldLen w0).toNat → step s = .fault .operandsPending)

/-- R6: a configuration that breaks a bound of R5 has no block: no command has meaning for it. The refusal as a
step's outcome is the model's inference (log 4). -/
def Obligations.BadConfigurationIsRefused : Prop :=
  (∀ s : State, cfgValid s.cfg = false → step s = .refused .badConfiguration) ∧
  (∀ c : Config, cfgValid c = true ↔
    (1 ≤ c.sr ∧ (1 ≤ c.genCap ∧ c.genCap ≤ 255) ∧
     (1 ≤ c.nTracks ∧ c.nTracks ≤ 255) ∧ (1 ≤ c.frameLen ∧ c.frameLen ≤ 2048) ∧
     (1 ≤ c.dlyCap.length ∧ c.dlyCap.length ≤ 15) ∧ (∀ n ∈ c.dlyCap, 1 ≤ n ∧ n ≤ 2 ^ 24) ∧
     (1 ≤ c.nReverb ∧ c.nReverb ≤ 15) ∧ (1 ≤ c.nFft ∧ c.nFft ≤ 15) ∧
     (∃ k, c.fftN = 2 ^ k) ∧ c.fftN ≤ 2048 ∧ c.fftWindow.length = 2 * c.fftN ∧
     c.nLine ≤ 15 ∧ c.nAdsr ≤ 15))

/-- R21, R87: every command, legal or not, moves the pc by exactly one and the stream by `1 + LEN` words. -/
def Obligations.EveryCommandMovesThePcByOne : Prop :=
  ∀ s t : State, step s = .next t →
    t.pc = s.pc + 1 ∧
    ∃ (w0 : Word) (ops : List Word),
      s.stream = w0 :: (ops ++ t.stream) ∧ ops.length = (fieldLen w0).toNat

/-- R83: every command gives exactly one response: the word `RS`, whose bits 3:0 are the status code (OK 0,
EXHAUSTED 1, BAD_HANDLE 2, ILLEGAL 3, PRECOND 4, RANGE 5) and whose other bits are 0, and then data words, as
many as its opcode's `RLEN` whatever the status. -/
def Obligations.EveryCommandAnswersOnce : Prop :=
  ∀ (s t : State) (w0 : Word) (rest : List Word), step s = .next t → s.stream = w0 :: rest →
    ∃ (r : Response) (rs : Word), t.responses = s.responses ++ [r] ∧
      r.words = rs :: r.data ∧ r.data.length = rlenOf (fieldOpc w0) ∧
      rs.extractLsb' 4 28 = 0#28 ∧
      rs.extractLsb' 0 4 =
        (match r.code with
        | .ok => 0#4 | .exhausted => 1#4 | .badHandle => 2#4
        | .illegal => 3#4 | .precond => 4#4 | .range => 5#4)

/-- R6, R42: no command changes a parameter. R65: what a command does is the same wherever the platform places
the buffer and the command port (log 17). -/
def Obligations.ParametersNeverChange : Prop :=
  ∀ s t : State, step s = .next t →
    t.cfg = s.cfg ∧
    ∀ p : PlatformMap,
      step { s with cfg := { s.cfg with platformMap := p } } =
        .next { t with cfg := { t.cfg with platformMap := p } }

/-- R52, R303: after a step POISON is set exactly where it was set before or the step's response is
PRECOND; so no step clears it. -/
def Obligations.PoisonIsStickyAndComesFromPrecond : Prop :=
  ∀ s t : State, step s = .next t →
    ∃ r : Response, t.responses = s.responses ++ [r] ∧
      (t.poison = true ↔ s.poison = true ∨ r.code = .precond)

/-- R302: the STATUS bits after a command are those before with the bit of its outcome set (ILL 0, EXH 1,
BADH 2, PRECOND 3, QRANGE 4, none for OK), for every command but an accepted CSR_WR. -/
def Obligations.StatusBitsFollowTheOutcome : Prop :=
  ∀ (i : Instr) (s t : State), exec i s = .next t →
    (∀ v, i ≠ .csrWr 0x000#12 0#8 v) →
    ∃ r : Response, t.responses = s.responses ++ [r] ∧
      t.status = s.status |||
        (match r.code with
        | .ok => 0x00#32 | .illegal => 0x01#32 | .exhausted => 0x02#32
        | .badHandle => 0x04#32 | .precond => 0x08#32 | .range => 0x10#32)

/-- R303, R41: a STATUS bit stays 1 until a CSR_WR to STATUS writes 1 to it. -/
def Obligations.StatusBitsAreSticky : Prop :=
  ∀ (s t : State) (j : Nat), step s = .next t → s.status.getLsbD j = true →
    t.status.getLsbD j = false →
    ∃ (v : Word) (rest : List Word),
      s.stream = [0x10000071#32, v] ++ rest ∧ v.getLsbD j = true ∧ j < 5

/-- R303: a command that ends EXHAUSTED, BAD_HANDLE or ILLEGAL changes no state except the STATUS bit of
its error (and the record of its response). -/
def Obligations.ErrorsChangeOnlyTheirStatusBit : Prop :=
  ∀ (i : Instr) (s t : State) (r : Response), exec i s = .next t →
    t.responses = s.responses ++ [r] →
    (r.code = .exhausted ∨ r.code = .badHandle ∨ r.code = .illegal) →
    { t with status := s.status, responses := s.responses, draws := s.draws } = s ∧
    t.status = s.status ||| statusBit r.code

/-- R11, R52: a response carries the rule's data words; once POISON is set, every data word of it is the
next free value, and nothing else of the response changes (the model's reading of R11, log 5 and log 6). -/
def Obligations.ResponseCarriesFreeWordsOncePoisoned : Prop :=
  ∀ (s : State) (code : RespCode) (data : List Word),
    (s.poison = false →
      State.respond code data s = { s with responses := s.responses ++ [⟨code, data⟩] }) ∧
    (s.poison = true →
      State.respond code data s =
        { s with
          responses := s.responses ++
            [⟨code, (List.range data.length).map fun k => Config.anyWord (s.draws + k)⟩]
          draws := s.draws + data.length })

/-- The frame of every command: it writes only the state of its own unit, there only the instance its
`IDX` names, and no byte of the output frame buffer unless it is MIX_PERIOD. -/
def Obligations.CommandsWriteOnlyTheirUnits : Prop :=
  ∀ (i : Instr) (s t : State), exec i s = .next t →
    t.cfg = s.cfg ∧ t.pc = s.pc ∧ t.stream = s.stream ∧
    (i.opc ≠ 0x01#8 → i.opc ≠ 0x02#8 → i.opc ≠ 0x03#8 → t.gen = s.gen) ∧
    (i.opc ≠ 0x10#8 → t.dly = s.dly) ∧
    (i.opc ≠ 0x20#8 → i.opc ≠ 0x21#8 → t.rvb = s.rvb) ∧
    (i.opc ≠ 0x30#8 → i.opc ≠ 0x31#8 → i.opc ≠ 0x32#8 → t.fft = s.fft) ∧
    (i.opc ≠ 0x40#8 → i.opc ≠ 0x41#8 → i.opc ≠ 0x42#8 → t.line = s.line) ∧
    (i.opc ≠ 0x48#8 → i.opc ≠ 0x49#8 → i.opc ≠ 0x4A#8 → t.adsr = s.adsr) ∧
    (i.opc ≠ 0x60#8 → i.opc ≠ 0x61#8 → t.trk = s.trk) ∧
    (i.opc ≠ 0x61#8 → (∀ a, t.mem.read a = s.mem.read a) ∧ t.sinkReads = s.sinkReads) ∧
    (∀ j : Nat, j ≠ i.idx.toNat →
      t.dly[j]? = s.dly[j]? ∧ t.rvb[j]? = s.rvb[j]? ∧ t.fft[j]? = s.fft[j]? ∧
      t.line[j]? = s.line[j]? ∧ t.adsr[j]? = s.adsr[j]? ∧
      (i.opc = 0x02#8 → t.gen[j]? = s.gen[j]?) ∧ (i.opc = 0x60#8 → t.trk[j]? = s.trk[j]?))

/-- R64: CSR_RD, GEN_RD and OUT_RD have no side effects: they leave every piece of state as it was but the
STATUS bit of an error (and the record of the response). MIX and CLAMP leave STATUS too. -/
def Obligations.ReadsHaveNoSideEffects : Prop :=
  ∀ (i : Instr) (s t : State), exec i s = .next t →
    (i.opc = 0x70#8 ∨ i.opc = 0x04#8 ∨ i.opc = 0x62#8 ∨ i.opc = 0x50#8 ∨ i.opc = 0x51#8) →
    { t with status := s.status, responses := s.responses, draws := s.draws } = s ∧
    (i.opc = 0x50#8 ∨ i.opc = 0x51#8 → t.status = s.status)

/-- R85 step 4, R41 to R50: a command is answered ILLEGAL exactly where its fields are illegal: `TYPE` 0 or 3,
a CSR address unmapped, not writable, or global with a nonzero instance. The mapped addresses are those of R41
to R48 and no other (R49); 0x000 to 0x007 are global; only 0x000 is writable. -/
def Obligations.IllegalExactlyForIllFormedCommands : Prop :=
  let mapped : BitVec 12 → Prop := fun a =>
    a.toNat ≤ 0x007 ∨ (0x010 ≤ a.toNat ∧ a.toNat ≤ 0x012) ∨ (0x100 ≤ a.toNat ∧ a.toNat ≤ 0x101) ∨
    (0x200 ≤ a.toNat ∧ a.toNat ≤ 0x205) ∨ (0x209 ≤ a.toNat ∧ a.toNat ≤ 0x20D) ∨
    (0x300 ≤ a.toNat ∧ a.toNat ≤ 0x302) ∨ (0x400 ≤ a.toNat ∧ a.toNat ≤ 0x403) ∨
    (0x480 ≤ a.toNat ∧ a.toNat ≤ 0x488)
  let legal : Instr → Prop := fun i =>
    match i with
    | .genReg type _ => type = 1#2 ∨ type = 2#2
    | .csrRd a n => mapped a ∧ (a.toNat ≤ 0x007 → n = 0#8)
    | .csrWr a n _ => a = 0x000#12 ∧ n = 0#8
    | _ => True
  (∀ a, csrOf a = none ↔ ¬ mapped a) ∧
  (∀ i, WellFormed i = true ↔ legal i) ∧
  (∀ (i : Instr) (s : State), ¬ legal i →
    exec i s = .next (State.respond .illegal (List.replicate (rlenOf i.opc) 0#32)
      { s with
        status := s.status ||| 0x01#32 })) ∧
  (∀ (i : Instr) (s t : State) (r : Response), legal i → exec i s = .next t →
    t.responses = s.responses ++ [r] → r.code ≠ .illegal)

/-- R301: every index is checked against its bound; out of range, or a Free handle, the command is rejected
as BAD_HANDLE with data words 0 and only STATUS.BADH set. -/
def Obligations.IndexOutOfRangeAnswersBadHandle : Prop :=
  ∀ (s : State) (n : BitVec 8),
    let bad : Nat → Outcome := fun k =>
      .next (State.respond .badHandle (List.replicate k 0#32) { s with status := s.status ||| 0x04#32 })
    ((s.cfg.genCap ≤ n.toNat ∨ ∃ g, s.gen[n.toNat]? = some g ∧ g.kind = .free) →
      exec (.genRel n) s = bad 0 ∧ exec (.genRd n) s = bad 1) ∧
    (s.cfg.nDelay ≤ n.toNat → ∀ x d fb, exec (.dlyApply n x d fb) s = bad 1) ∧
    (s.cfg.nReverb ≤ n.toNat →
      (∀ w d r c p, exec (.rvbCfg n w d r c p) s = bad 0) ∧ ∀ x, exec (.rvbApply n x) s = bad 1) ∧
    (s.cfg.nFft ≤ n.toNat →
      (∀ x, exec (.fftIn n x) s = bad 1) ∧ exec (.fftOut n) s = bad 1 ∧
      ∀ f, exec (.fftShift n f) s = bad 0) ∧
    (s.cfg.nLine ≤ n.toNat →
      (∀ l a b, exec (.lineSet n l a b) s = bad 0) ∧ exec (.lineRst n) s = bad 0 ∧
      exec (.lineAdv n) s = bad 2) ∧
    (s.cfg.nAdsr ≤ n.toNat →
      (∀ g l a b, exec (.adsrSet n g l a b) s = bad 0) ∧ exec (.adsrRst n) s = bad 0 ∧
      ∀ g, exec (.adsrAdv n g) s = bad 2) ∧
    (∀ k : BitVec 11, (s.cfg.nTracks ≤ n.toNat ∨ s.cfg.frameLen ≤ k.toNat) →
      ∀ ch v, exec (.trkWr n k ch v) s = bad 0) ∧
    (∀ k : BitVec 11, s.cfg.frameLen ≤ k.toNat → exec (.outRd k) s = bad 1) ∧
    (∀ (a : BitVec 12) (r : Csr) (u : CsrUnit), csrOf a = some r → r.unit = some u →
      csrCount s.cfg u ≤ n.toNat → exec (.csrRd a n) s = bad 1)

/-! ## Generators -/

/-- R113, R110, R83: GEN_REG takes the lowest Free slot and replies its index: where `0 ≤ f < SR` it stores the
type and the frequency with phase and output 0 and replies `OK`, else it replies `PRECOND` with POISON set and
leaves the slot registered with every field free (which free value stands where, that the kind is one of a
registered slot, and that the index is still R113's, is the model's reading: log 5, log 6, log 7). -/
def Obligations.GenRegTakesTheLowestFreeSlot : Prop :=
  ∀ (s : State) (type : BitVec 2) (kind : GenKind) (freq : B32) (h : Nat) (g : GenSlot),
    (type = 1#2 ∧ kind = .sine ∨ type = 2#2 ∧ kind = .phasor) →
    s.gen[h]? = some g → g.kind = .free →
    (∀ (j : Nat) (g' : GenSlot), j < h → s.gen[j]? = some g' → g'.kind ≠ .free) →
    exec (.genReg type freq) s =
      if fle 0#32 freq = true ∧ flt freq (toB32 s.cfg.sr) = true then
        .next (State.respond .ok [BitVec.ofNat 32 h]
          { s with gen := s.gen.set h ⟨kind, freq, 0#32, 0#32⟩ })
      else
        .next { State.respond .precond [BitVec.ofNat 32 h]
                  { s with
                    gen := s.gen.set h
                      ⟨if (Config.anyWord s.draws).getLsbD 0 = true then .sine else .phasor,
                        Config.anyWord (s.draws + 1), Config.anyWord (s.draws + 2),
                        Config.anyWord (s.draws + 3)⟩
                    draws := s.draws + 4 } with
                status := s.status ||| 0x08#32, poison := true }

/-- R113, R304: with no Free slot GEN_REG replies EXHAUSTED and its sentinel, whatever the frequency, and
changes only STATUS.EXH. -/
def Obligations.GenRegExhaustedWhenFull : Prop :=
  ∀ (s : State) (type : BitVec 2) (freq : B32), (type = 1#2 ∨ type = 2#2) →
    (∀ g ∈ s.gen, g.kind ≠ .free) →
    exec (.genReg type freq) s =
      .next (State.respond .exhausted [0xFFFFFFFF#32] { s with status := s.status ||| 0x02#32 })

/-- R114: GEN_REL of a live handle makes the slot Free with every field `+0.0`. -/
def Obligations.GenRelFreesTheSlot : Prop :=
  ∀ (s : State) (h : BitVec 8) (g : GenSlot),
    h.toNat < s.cfg.genCap → s.gen[h.toNat]? = some g → g.kind ≠ .free →
    exec (.genRel h) s = .next (State.respond .ok []
      { s with gen := s.gen.set h.toNat ⟨.free, 0#32, 0#32, 0#32⟩ })

/-- R115, R111, R112: GEN_ADV advances every slot once: a Sine outputs the sine of its phase and wraps the
advanced phase modulo TWO_PI32, a Phasor outputs its phase and wraps once past 1.0, a Free slot is
untouched. -/
def Obligations.GenAdvStepsEverySlot : Prop :=
  ∀ s : State,
    exec .genAdv s = .next (State.respond .ok []
      { s with
        gen := s.gen.map fun g =>
          match g.kind with
          | .free => g
          | .sine =>
            { g with
              out := sin32 s.cfg.sine g.ph
              ph := fmod32 (fadd s.cfg.num g.ph
                (fdiv s.cfg.num (fmul s.cfg.num 0x40C90FDB#32 g.freq) (toB32 s.cfg.sr)))
                0x40C90FDB#32 }
          | .phasor =>
            { g with
              out := g.ph
              ph :=
                if flt 0x3F800000#32
                    (fadd s.cfg.num g.ph (fdiv s.cfg.num g.freq (toB32 s.cfg.sr))) = true then
                  fsub s.cfg.num (fadd s.cfg.num g.ph (fdiv s.cfg.num g.freq (toB32 s.cfg.sr)))
                    0x3F800000#32
                else fadd s.cfg.num g.ph (fdiv s.cfg.num g.freq (toB32 s.cfg.sr)) } })

/-- R116: GEN_RD of a live handle replies the slot's last output and changes nothing. -/
def Obligations.GenRdReturnsTheLastOutput : Prop :=
  ∀ (s : State) (h : BitVec 8) (g : GenSlot),
    h.toNat < s.cfg.genCap → s.gen[h.toNat]? = some g → g.kind ≠ .free →
    exec (.genRd h) s = .next (State.respond .ok [g.out] s)

/-- R117 item 2, R111: under the default arithmetic, a command that leaves POISON clear keeps every Phasor's
phase and output in `[0, 1.0]` and, for `SR < 2^125` (where R111's product cannot overflow), every Sine's phase
in `[0, TWO_PI32)`. -/
def Obligations.OscillatorRangesAreKept : Prop :=
  ∀ (i : Instr) (s t : State), cfgValid s.cfg = true → s.cfg.num = .ieee754 →
    (∀ g ∈ s.gen, g.InRange s.cfg) → exec i s = .next t → t.poison = false →
    ∀ g ∈ t.gen, g.InRange t.cfg

/-! ## Delay line -/

/-- R140, R141, R142: a DLY_APPLY that meets the preconditions reads the entry `D` behind the write head,
then writes the sample mixed with the feedback at the write head, and moves it. -/
def Obligations.DlyApplyReadsThenWrites : Prop :=
  ∀ (s : State) (i : BitVec 8) (x delay fb : B32) (d : Delay) (cap : Nat) (dr y : B32),
    i.toNat < s.cfg.nDelay → s.dly[i.toNat]? = some d → s.cfg.dlyCap[i.toNat]? = some cap →
    dr = fmul s.cfg.num delay (toB32 s.cfg.sr) →
    isFinite dr = true → fle 0#32 dr = true → truncInt dr ≤ cap →
    flt 0xBF800000#32 fb = true → flt fb 0x3F800000#32 = true →
    y = d.buf.getD (((d.wp : Int) - truncInt dr) % (cap : Int)).toNat 0#32 →
    exec (.dlyApply i x delay fb) s = .next (State.respond .ok [y]
      { s with
        dly := s.dly.set i.toNat
          ⟨d.buf.set d.wp (fadd s.cfg.num x (fmul s.cfg.num y fb)), (d.wp + 1) % cap⟩ })

/-- R141, R142: a DLY_APPLY that breaks a precondition replies PRECOND with a free value, leaves every
entry of the buffer and the write head (within its bound) free, and sets STATUS.PRECOND and POISON. Which
free value stands where is the model's choice (log 5); the claim holds for every value of them. -/
def Obligations.DlyApplyViolationLeavesFreeValues : Prop :=
  ∀ (s : State) (i : BitVec 8) (x delay fb : B32) (d : Delay) (cap : Nat) (dr : B32),
    i.toNat < s.cfg.nDelay → s.dly[i.toNat]? = some d → s.cfg.dlyCap[i.toNat]? = some cap →
    dr = fmul s.cfg.num delay (toB32 s.cfg.sr) →
    (isFinite dr = false ∨ fle 0#32 dr = false ∨ (cap : Int) < truncInt dr ∨
      flt 0xBF800000#32 fb = false ∨ flt fb 0x3F800000#32 = false) →
    exec (.dlyApply i x delay fb) s = .next
      { State.respond .precond [Config.anyWord (s.draws + (cap + 1))]
          { s with
            dly := s.dly.set i.toNat
              ⟨(List.range cap).map fun k => Config.anyWord (s.draws + k),
                (Config.anyWord (s.draws + cap)).toNat % cap⟩
            draws := s.draws + (cap + 2) } with
        status := s.status ||| 0x08#32, poison := true }

/-- R143, R144: over any sequence of samples and feedbacks at a fixed offset `D` in `[1, C]`, the `n`-th
output is what was written `D` calls before, or the buffer's own entry for the first `D` calls, and the
write head moves by one a call modulo `C`. -/
def Obligations.DelayLineDelaysByItsOffset : Prop :=
  ∀ (u : NumUnit) (d : Delay) (cap off : Nat) (ins : List (B32 × B32)),
    d.Fits cap → 1 ≤ off → off ≤ cap →
    ∀ run : Delay × List B32 × List B32,
      run = ins.foldl (fun p q =>
        ((delayStep u p.1 off cap q.1 q.2).1,
          p.2.1 ++ [(delayStep u p.1 off cap q.1 q.2).2],
          p.2.2 ++ [fadd u q.1 (fmul u (delayStep u p.1 off cap q.1 q.2).2 q.2)])) (d, [], []) →
    run.1.wp = (d.wp + ins.length) % cap ∧
    ∀ n, n < ins.length →
      run.2.1.getD n 0#32 =
        if n < off then d.buf.getD ((d.wp + n + (cap - off)) % cap) 0#32
        else run.2.2.getD (n - off) 0#32

/-! ## Reverb -/

/-- R162: RVB_CFG writes the shadow parameters and nothing else of the instance. -/
def Obligations.RvbCfgWritesTheShadow : Prop :=
  ∀ (s : State) (i : BitVec 8) (r : Reverb) (wet decay room cutoff predelay : B32),
    i.toNat < s.cfg.nReverb → s.rvb[i.toNat]? = some r →
    exec (.rvbCfg i wet decay room cutoff predelay) s = .next (State.respond .ok []
      { s with
        rvb := s.rvb.set i.toNat
          { r with shadow := ⟨wet, decay, room, cutoff, predelay⟩ } })

/-- R163: RVB_APPLY drains one output sample, stores its input, and on the 32nd sample of a chunk latches
the shadow parameters and runs the kernel once over the full chunk. -/
def Obligations.RvbApplyDrainsThenAccumulates : Prop :=
  ∀ (s : State) (i : BitVec 8) (r : Reverb) (x : B32),
    i.toNat < s.cfg.nReverb → s.rvb[i.toNat]? = some r →
    exec (.rvbApply i x) s = .next (State.respond .ok [r.out[r.ridx]]
      { s with
        rvb := s.rvb.set i.toNat
          (if r.ridx = 31 then
            { inp := r.inp.set r.ridx x
              out := (s.cfg.kernel r.shadow r.kst (r.inp.set r.ridx x)).1
              ridx := 0
              shadow := r.shadow
              active := r.shadow
              kst := (s.cfg.kernel r.shadow r.kst (r.inp.set r.ridx x)).2 }
          else { r with inp := r.inp.set r.ridx x, ridx := r.ridx + 1 }) })

/-- R160, R164: for every kernel, 32 samples from a chunk boundary reply the old output chunk in order and
end with one run of the kernel over exactly those samples. -/
def Obligations.ReverbRunsTheKernelOncePerChunk : Prop :=
  ∀ (kernel : RvbKernel) (r : Reverb) (xs : Vector B32 32), r.ridx = 0 →
    xs.toList.foldl (fun (p : Reverb × List B32) x =>
        ((reverbStep kernel p.1 x).1, p.2 ++ [(reverbStep kernel p.1 x).2])) (r, []) =
      ({ inp := xs
         out := (kernel r.shadow r.kst xs).1
         ridx := 0
         shadow := r.shadow
         active := r.shadow
         kst := (kernel r.shadow r.kst xs).2 }, r.out.toList)

/-! ## Spectral processor -/

/-- R185: FFT_IN stores its sample; the one that completes a frame transforms the windowed previous and
current frames into the working and the persistent spectrum, and raises STAGE and READY; the reply is
`READY ++ STAGE`. -/
def Obligations.FftInTransformsACompleteFrame : Prop :=
  ∀ (s : State) (i : BitVec 8) (f f' : Spectral) (x : B32) (spectrum : List Cpx),
    i.toNat < s.cfg.nFft → s.fft[i.toNat]? = some f →
    spectrum = fftForward s.cfg.num (2 * s.cfg.fftN)
      (((List.range s.cfg.fftN).map fun m =>
          ⟨fmul s.cfg.num (s.cfg.fftWindow.getD m 0#32) (f.ovl.getD m 0#32), 0#32⟩) ++
        ((List.range s.cfg.fftN).map fun m =>
          ⟨fmul s.cfg.num (s.cfg.fftWindow.getD (s.cfg.fftN + m) 0#32)
            ((f.cur.set f.sidx x).getD m 0#32), 0#32⟩)) →
    f' = (if f.sidx = s.cfg.fftN - 1 then
        { f with
          cur := f.cur.set f.sidx x, ovl := f.cur.set f.sidx x
          work := spectrum, pers := spectrum
          stage := true, ready := true, sidx := 0 }
      else { f with cur := f.cur.set f.sidx x, sidx := f.sidx + 1 }) →
    exec (.fftIn i x) s = .next (State.respond .ok
      [0#30 ++ BitVec.ofBool f'.ready ++ BitVec.ofBool f'.stage]
      { s with fft := s.fft.set i.toNat f' })

/-- R186: FFT_OUT takes a waiting frame (the inverse transform of the persistent spectrum, its first half
added to the last tail, its second half the new tail), then drains one sample, or replies `+0.0` where
nothing is left. -/
def Obligations.FftOutOverlapAddsAndDrains : Prop :=
  ∀ (s : State) (i : BitVec 8) (f g : Spectral) (y : List Cpx),
    i.toNat < s.cfg.nFft → s.fft[i.toNat]? = some f →
    y = fftInverse s.cfg.num (2 * s.cfg.fftN) f.pers →
    g = (if f.ready = true then
        { f with
          olaOut := (List.range s.cfg.fftN).map fun m =>
            fadd s.cfg.num (y.getD m ⟨0#32, 0#32⟩).re (f.olaTail.getD m 0#32)
          olaTail := (List.range s.cfg.fftN).map fun m =>
            (y.getD (s.cfg.fftN + m) ⟨0#32, 0#32⟩).re
          oidx := 0, ready := false }
      else f) →
    exec (.fftOut i) s =
      if g.oidx < s.cfg.fftN then
        .next (State.respond .ok [g.olaOut.getD g.oidx 0#32]
          { s with fft := s.fft.set i.toNat { g with oidx := g.oidx + 1 } })
      else .next (State.respond .ok [0#32] { s with fft := s.fft.set i.toNat g })

/-- R187: FFT_SHIFT by a positive factor gathers bin `k` from bin `floor(k/r)` for `k ≤ N`, zero beyond the
spectrum, and mirrors bins above `N` as conjugates; by another factor it leaves the persistent spectrum
free and reports PRECOND (the free values as log 5 says; a negative quotient of a custom NUM, log 9). -/
def Obligations.FftShiftGathersBins : Prop :=
  ∀ (s : State) (i : BitVec 8) (f : Spectral) (r : B32) (bin : Nat → Cpx),
    i.toNat < s.cfg.nFft → s.fft[i.toNat]? = some f →
    (∀ k, bin k =
      if isFinite (fdiv s.cfg.num (toB32 k) r) = true ∧
          floorInt (fdiv s.cfg.num (toB32 k) r) ≤ s.cfg.fftN then
        f.pers.getD (floorInt (fdiv s.cfg.num (toB32 k) r)).toNat ⟨0#32, 0#32⟩
      else ⟨0#32, 0#32⟩) →
    exec (.fftShift i r) s =
      if flt 0#32 r = true then
        .next (State.respond .ok []
          { s with
            fft := s.fft.set i.toNat
              { f with pers := (List.range (2 * s.cfg.fftN)).map fun k =>
                  if k ≤ s.cfg.fftN then bin k
                  else ⟨(bin (2 * s.cfg.fftN - k)).re,
                    (bin (2 * s.cfg.fftN - k)).im ^^^ 0x80000000#32⟩ } })
      else
        .next
          { State.respond .precond []
              { s with
                fft := s.fft.set i.toNat
                  { f with pers := (List.range (2 * s.cfg.fftN)).map fun k =>
                      ⟨Config.anyWord (s.draws + 2 * k), Config.anyWord (s.draws + (2 * k + 1))⟩ }
                draws := s.draws + 2 * (2 * s.cfg.fftN) } with
            status := s.status ||| 0x08#32, poison := true }

/-- R184, R181: for every `L = 2^n`, `bitrev` reverses the low `n` bits and entry `bitrev(m)` of the reordered
input is `a[m]`; the transform is the stages of span 2, 4, …, L over it, in that order; in a stage of span `2h`
every entry is one butterfly's sum or difference of two entries of its input, in the operations and the order of
R181. FFTF is the transform with the forward table (cosine, and minus sine with an exact zero kept), unscaled;
FFTI the one with the inverse table (cosine, sine), each entry scaled by `1/L`, which is exact for every `L` a
block can have (up to 2^12). The table's cosine and sine are as the model computes them (log 10). -/
def Obligations.TransformIsBitReversalAndButterflies : Prop :=
  (∀ n m : Nat, bitrev n m < 2 ^ n ∧
    ∀ j, j < n → (bitrev n m).testBit j = m.testBit (n - 1 - j)) ∧
  (∀ (n : Nat) (a : List Cpx), (bitrevList (2 ^ n) a).length = 2 ^ n ∧
    ∀ m, m < 2 ^ n → (bitrevList (2 ^ n) a).getD (bitrev n m) ⟨0#32, 0#32⟩ = a.getD m ⟨0#32, 0#32⟩) ∧
  (∀ (u : NumUnit) (tw : Nat → Cpx) (n : Nat) (a : List Cpx) (stages : Nat → List Cpx),
    stages 0 = bitrevList (2 ^ n) a →
    (∀ q, q < n → stages (q + 1) = fftStage u tw (2 ^ n) (2 * 2 ^ q) (stages q)) →
    xfft u tw (2 ^ n) a = stages n) ∧
  (∀ (u : NumUnit) (tw : Nat → Cpx) (l h : Nat) (a : List Cpx) (x t v : Nat → Cpx),
    1 ≤ h → 2 * h ∣ l → a.length = l →
    (∀ p, x p = a.getD p ⟨0#32, 0#32⟩) →
    (∀ p, t p =
      ⟨fsub u (fmul u (tw (p % (2 * h) * (l / (2 * h)))).re (x (p + h)).re)
          (fmul u (tw (p % (2 * h) * (l / (2 * h)))).im (x (p + h)).im),
        fadd u (fmul u (tw (p % (2 * h) * (l / (2 * h)))).re (x (p + h)).im)
          (fmul u (tw (p % (2 * h) * (l / (2 * h)))).im (x (p + h)).re)⟩) →
    (∀ p, v p =
      if p % (2 * h) < h then ⟨fadd u (x p).re (t p).re, fadd u (x p).im (t p).im⟩
      else ⟨fsub u (x (p - h)).re (t (p - h)).re, fsub u (x (p - h)).im (t (p - h)).im⟩) →
    (fftStage u tw l (2 * h) a).length = l ∧
    ∀ p, p < l → (fftStage u tw l (2 * h) a).getD p ⟨0#32, 0#32⟩ = v p) ∧
  (∀ (u : NumUnit) (l : Nat) (a : List Cpx),
    fftForward u l a =
      xfft u (fun k => ⟨twiddleCos l k,
        if twiddleSin l k = 0#32 then 0#32 else twiddleSin l k ^^^ 0x80000000#32⟩) l a ∧
    fftInverse u l a =
      (xfft u (fun k => ⟨twiddleCos l k, twiddleSin l k⟩) l a).map fun z =>
        ⟨fmul u z.re (invL l), fmul u z.im (invL l)⟩) ∧
  ∀ n, n ≤ 12 → isFinite (invL (2 ^ n)) = true ∧ scaled (invL (2 ^ n)) * 2 ^ n = 2 ^ 149

/-- R183, R182, R184: the twiddle tables the spec lists for `L = 4` and `L = 8`, the default window for both
lengths, and `1/L` for `L = 4`, as the model computes them (log 10). -/
def Obligations.ListedTwiddlesAndWindows : Prop :=
  [twf 4 0, twf 4 1] = [⟨0x3F800000#32, 0x00000000#32⟩, ⟨0x00000000#32, 0xBF800000#32⟩] ∧
  [twi 4 0, twi 4 1] = [⟨0x3F800000#32, 0x00000000#32⟩, ⟨0x00000000#32, 0x3F800000#32⟩] ∧
  [twf 8 1, twf 8 2, twf 8 3] =
    [⟨0x3F3504F3#32, 0xBF3504F3#32⟩, ⟨0x00000000#32, 0xBF800000#32⟩, ⟨0xBF3504F3#32, 0xBF3504F3#32⟩] ∧
  hannWindow 4 = [0x00000000#32, 0x3F000000#32, 0x3F800000#32, 0x3F000000#32] ∧
  hannWindow 8 =
    [0x00000000#32, 0x3E15F61A#32, 0x3F000000#32, 0x3F5A827A#32,
     0x3F800000#32, 0x3F5A827A#32, 0x3F000000#32, 0x3E15F61A#32] ∧
  invL 4 = 0x3E800000#32

/-! ## Envelope units -/

/-- R223: LINE_SET stores start and end and fills the counter with the length's sample count; a length
without one leaves `NTOT` and `REM` (at most `NTOT`) free and reports PRECOND (log 5). -/
def Obligations.LineSetConfiguresAndRestarts : Prop :=
  ∀ (s : State) (j : BitVec 8) (l : Line) (len start stop : B32),
    j.toNat < s.cfg.nLine → s.line[j.toNat]? = some l →
    (∀ n, segLen s.cfg len = some n →
      exec (.lineSet j len start stop) s = .next (State.respond .ok []
        { s with
          line := s.line.set j.toNat ⟨n, n, start, stop⟩ })) ∧
    (segLen s.cfg len = none →
      ∃ n m : Word, n = Config.anyWord s.draws ∧
        m.toNat = (Config.anyWord (s.draws + 1)).toNat % (n.toNat + 1) ∧
        exec (.lineSet j len start stop) s = .next
          { State.respond .precond []
              { s with line := s.line.set j.toNat ⟨n, m, start, stop⟩, draws := s.draws + 2 } with
            status := s.status ||| 0x08#32, poison := true })

/-- R220: a length has no sample count exactly where its product with `SR` is NaN, negative or not below
2^32; else the count is the product truncated toward zero, which a `u32` holds. -/
def Obligations.SegmentLengthIsTheTruncatedProduct : Prop :=
  ∀ (c : Config) (len n : B32), n = fmul c.num len (toB32 c.sr) →
    (segLen c len = none ↔
      isNaN n = true ∨ flt n 0#32 = true ∨ fle 0x4F800000#32 n = true) ∧
    (∀ w, segLen c len = some w → (w.toNat : Int) = truncInt n)

/-- R224, R221: LINE_ADV counts one sample down and replies the ramp's value `mix(START, END, k/NTOT)` with
done 0, or `END` with done 1 once the counter is 0. -/
def Obligations.LineAdvCountsDown : Prop :=
  ∀ (s : State) (j : BitVec 8) (l : Line),
    j.toNat < s.cfg.nLine → s.line[j.toNat]? = some l →
    (l.rem.toNat ≤ 1 →
      exec (.lineAdv j) s = .next (State.respond .ok [l.stop, 1#32]
        { s with
          line := s.line.set j.toNat { l with rem := 0#32 } })) ∧
    (1 < l.rem.toNat →
      exec (.lineAdv j) s = .next (State.respond .ok
        [mixValue s.cfg.num l.start l.stop
          (fdiv s.cfg.num (toB32 ((l.ntot.toNat - (l.rem.toNat - 1) : Nat) : Int))
            (toB32 (l.ntot.toNat : Int))), 0#32]
        { s with line := s.line.set j.toNat { l with rem := l.rem - 1#32 } }))

/-- R225: LINE_RST restores the counter and keeps length, start and end. -/
def Obligations.LineRstRestoresTheCounter : Prop :=
  ∀ (s : State) (j : BitVec 8) (l : Line),
    j.toNat < s.cfg.nLine → s.line[j.toNat]? = some l →
    exec (.lineRst j) s = .next (State.respond .ok []
      { s with line := s.line.set j.toNat ⟨l.ntot, l.ntot, l.start, l.stop⟩ })

/-- R221: from a full counter, the `k`-th advance returns `k/NTOT` of the ramp with done 0 for `k < NTOT`,
and `END` with done 1 from the `NTOT`-th on. -/
def Obligations.RampReachesItsEndAtTheLastSample : Prop :=
  ∀ (u : NumUnit) (n : Word) (start stop : B32) (k : Nat), 1 ≤ k →
    let before : Line := (fun l => (segAdv u l).1)^[k - 1] ⟨n, n, start, stop⟩
    (k < n.toNat →
      (segAdv u before).2 =
        (mixValue u start stop (fdiv u (toB32 (k : Int)) (toB32 (n.toNat : Int))), false)) ∧
    (n.toNat ≤ k → (segAdv u before).2 = (stop, true))

/-- R226: ADSR_SET sets the segment that `SEG` names as LINE_SET sets a line, and leaves `PH` and the other
segment (free values as log 5 says). -/
def Obligations.AdsrSetConfiguresOneSegment : Prop :=
  ∀ (s : State) (e : BitVec 8) (a : Adsr) (seg : Segment) (len start stop : B32)
    (put : Line → Adsr),
    e.toNat < s.cfg.nAdsr → s.adsr[e.toNat]? = some a →
    (∀ l, put l = match seg with
      | .attack => ⟨l, a.rel, a.ph⟩
      | .release => ⟨a.atk, l, a.ph⟩) →
    (∀ n, segLen s.cfg len = some n →
      exec (.adsrSet e seg len start stop) s = .next (State.respond .ok []
        { s with
          adsr := s.adsr.set e.toNat (put ⟨n, n, start, stop⟩) })) ∧
    (segLen s.cfg len = none →
      ∃ n m : Word, n = Config.anyWord s.draws ∧
        m.toNat = (Config.anyWord (s.draws + 1)).toNat % (n.toNat + 1) ∧
        exec (.adsrSet e seg len start stop) s = .next
          { State.respond .precond []
              { s with
                adsr := s.adsr.set e.toNat (put ⟨n, m, start, stop⟩)
                draws := s.draws + 2 } with
            status := s.status ||| 0x08#32, poison := true })

/-- R227: ADSR_RST fills both counters and returns to ATTACK. -/
def Obligations.AdsrRstReturnsToAttack : Prop :=
  ∀ (s : State) (e : BitVec 8) (a : Adsr),
    e.toNat < s.cfg.nAdsr → s.adsr[e.toNat]? = some a →
    exec (.adsrRst e) s = .next (State.respond .ok []
      { s with
        adsr := s.adsr.set e.toNat
          ⟨⟨a.atk.ntot, a.atk.ntot, a.atk.start, a.atk.stop⟩,
            ⟨a.rel.ntot, a.rel.ntot, a.rel.start, a.rel.stop⟩, .attack⟩ })

/-- R228: ADSR_ADV in each phase: ATTACK ramps and hands over to SUSTAIN when its segment is done, SUSTAIN
holds the attack's end, a trigger in either is already the first step of the release, RELEASE ramps to
DONE, and DONE replies the release's end with done 1. -/
def Obligations.AdsrAdvFollowsThePhases : Prop :=
  ∀ (s : State) (e : BitVec 8) (a : Adsr) (trig : Bool),
    e.toNat < s.cfg.nAdsr → s.adsr[e.toNat]? = some a →
    (a.ph = .attack → trig = false →
      exec (.adsrAdv e trig) s = .next (State.respond .ok [(segAdv s.cfg.num a.atk).2.1, 0#32]
        { s with
          adsr := s.adsr.set e.toNat
            ⟨(segAdv s.cfg.num a.atk).1, a.rel,
              if (segAdv s.cfg.num a.atk).2.2 = true then .sustain else .attack⟩ })) ∧
    (a.ph = .sustain → trig = false →
      exec (.adsrAdv e trig) s = .next (State.respond .ok [a.atk.stop, 0#32]
        { s with
          adsr := s.adsr.set e.toNat a })) ∧
    ((a.ph = .release ∨ (a.ph = .attack ∨ a.ph = .sustain) ∧ trig = true) →
      exec (.adsrAdv e trig) s = .next (State.respond .ok
        [(segAdv s.cfg.num a.rel).2.1, if (segAdv s.cfg.num a.rel).2.2 = true then 1#32 else 0#32]
        { s with
          adsr := s.adsr.set e.toNat
            ⟨a.atk, (segAdv s.cfg.num a.rel).1,
              if (segAdv s.cfg.num a.rel).2.2 = true then .done else .release⟩ })) ∧
    (a.ph = .done →
      exec (.adsrAdv e trig) s = .next (State.respond .ok [a.rel.stop, 1#32]
        { s with adsr := s.adsr.set e.toNat a }))

/-- R229, R222, R230: MIX replies `fadd(fmul(a, fsub(1.0, t)), fmul(b, t))`; CLAMP replies `lo` below `lo`,
else `hi` above `hi`, else `x`; neither changes any state. -/
def Obligations.MixAndClampReplyTheirValues : Prop :=
  (∀ (s : State) (a b t : B32),
    exec (.mix a b t) s = .next (State.respond .ok
      [fadd s.cfg.num (fmul s.cfg.num a (fsub s.cfg.num 0x3F800000#32 t)) (fmul s.cfg.num b t)] s)) ∧
  (∀ (s : State) (x lo hi : B32),
    exec (.clamp x lo hi) s = .next (State.respond .ok
      [if flt x lo = true then lo else if flt hi x = true then hi else x] s))

/-! ## Mixer -/

/-- R260: TRK_WR replaces one channel of one sample of one track. -/
def Obligations.TrkWrReplacesOneEntry : Prop :=
  ∀ (s : State) (t : BitVec 8) (k : BitVec 11) (ch : Channel) (v : B32) (b : List Stereo) (e : Stereo),
    t.toNat < s.cfg.nTracks → s.trk[t.toNat]? = some b →
    k.toNat < s.cfg.frameLen → b[k.toNat]? = some e →
    exec (.trkWr t k ch v) s = .next (State.respond .ok []
      { s with
        trk := s.trk.set t.toNat (b.set k.toNat
          (match ch with
          | .left => ⟨v, e.right⟩
          | .right => ⟨e.left, v⟩)) })

/-- R262, R261: MIX_PERIOD writes every sample of the frame: the tracks summed in ascending order from
`+0.0`, scaled by `FS` and truncated, or a free value where that is out of range (or POISON is set);
it zeroes every track, replies RANGE and sets STATUS.QRANGE exactly where a sample is out of range, and
overlaps every outstanding sink read (free values as log 5 says, POISON as log 6, sink reads as log 14). -/
def Obligations.MixPeriodQuantizesAndZeroes : Prop :=
  ∀ (s : State) (p : Nat → Nat → B32) (out : Nat → Nat → Prop),
    (∀ k ch, p k ch = fmul s.cfg.num
      (s.trk.foldl (fun acc b => fadd s.cfg.num acc
        (if ch = 0 then (b.getD k ⟨0#32, 0#32⟩).left else (b.getD k ⟨0#32, 0#32⟩).right)) 0#32)
      (toB32 s.cfg.fs)) →
    (∀ k ch, out k ch ↔
      isNaN (p k ch) = true ∨ fle (p k ch) 0xC7000100#32 = true ∨ fle 0x47000000#32 (p k ch) = true) →
    ∃ (m : Memory) (code : RespCode),
      exec .mixPeriod s = .next (State.respond code []
        { s with
          mem := m
          trk := List.replicate s.cfg.nTracks (List.replicate s.cfg.frameLen ⟨0#32, 0#32⟩)
          status := s.status ||| statusBit code
          draws := s.draws + 2 * s.cfg.frameLen
          sinkReads := s.sinkReads.map fun r => ⟨r.addr, r.size, true⟩ }) ∧
      (code = .ok ∨ code = .range) ∧
      (code = .range ↔ ∃ k ch, k < s.cfg.frameLen ∧ ch < 2 ∧ out k ch) ∧
      m.wf ∧ (∀ a, 4 * s.cfg.frameLen ≤ a → m.read a = 0#8) ∧
      ∀ k ch, k < s.cfg.frameLen → ch < 2 →
        (s.poison = false → ¬ out k ch → (m.sample k ch).toInt = truncInt (p k ch)) ∧
        (s.poison = true ∨ out k ch →
          m.sample k ch = (Config.anyWord (s.draws + (2 * k + ch))).setWidth 16)

/-- R263, R61: OUT_RD replies the left sample in bits 15:0 and the right one in bits 31:16. -/
def Obligations.OutRdPacksASamplePair : Prop :=
  ∀ (s : State) (k : BitVec 11), k.toNat < s.cfg.frameLen →
    ∃ w : Word, exec (.outRd k) s = .next (State.respond .ok [w] s) ∧
      w.extractLsb' 0 16 = s.mem.sample k.toNat 0 ∧ w.extractLsb' 16 16 = s.mem.sample k.toNat 1

/-- R61, R62, R63: `MemRead(4k + 2c, 2)` little-endian is the sample, and the 4-byte read at `4K` is the
word OUT_RD packs. -/
def Obligations.SinkReadsTheFrameLittleEndian : Prop :=
  ∀ (s : State) (k ch : Nat), s.poison = false → k < s.cfg.frameLen → ch < 2 →
    (∃ bs, s.sinkRead (4 * k + 2 * ch) 2 = .ok bs ∧
      littleEndian bs = (s.mem.sample k ch).toNat) ∧
    (∃ bs, s.sinkRead (4 * k) 4 = .ok bs ∧
      littleEndian bs = (s.mem.sample k 1 ++ s.mem.sample k 0).toNat)

/-- R61, R63, R69: a sink read outside the buffer is stuck by name; one that a MIX_PERIOD overlaps returns
free bytes, and one that nothing overlaps returns the buffer's bytes (sink reads as log 14 models them). -/
def Obligations.SinkReadsStuckOrRaced : Prop :=
  (∀ (s : State) (a n : Nat), (n = 1 ∨ n = 2 ∨ n = 4) → 4 * s.cfg.frameLen < a + n →
    s.sinkRead a n = .error .sinkOutsideBuffer ∧ s.sinkBegin a n = .error .sinkOutsideBuffer) ∧
  (∀ (s s' t : State) (a n : Nat), s.sinkReads = [] → s.sinkBegin a n = .ok s' →
    exec .mixPeriod s' = .next t →
    ∃ u, t.sinkEnd =
      .ok ((List.range n).map fun k => Config.anySinkByte t.draws (a + k), u)) ∧
  (∀ (s s' : State) (a n : Nat), s.sinkReads = [] → s.poison = false → s.sinkBegin a n = .ok s' →
    s'.sinkEnd = .ok ((List.range n).map fun k => s.mem.read (a + k), s))

/-! ## Registers -/

/-- R41, R42: what CSR_RD replies for each global register with instance 0: STATUS, or the parameter it names
(for `SR` and `FS`, which R5 does not bound, a free value where 32 bits do not hold them: log 21); it changes
nothing. -/
def Obligations.CsrRdReadsTheGlobalRegisters : Prop :=
  ∀ s : State,
    let reads : BitVec 12 → Word → Prop := fun a v =>
      exec (.csrRd a 0#8) s = .next (State.respond .ok [v] s)
    reads 0x000#12 s.status ∧
    reads 0x001#12
      (if s.cfg.sr < 2 ^ 32 then BitVec.ofNat 32 s.cfg.sr else Config.wideRegister s.cfg.sr) ∧
    reads 0x002#12 (BitVec.ofNat 32 s.cfg.genCap) ∧
    reads 0x003#12 (BitVec.ofNat 32 s.cfg.nTracks) ∧
    reads 0x004#12 (BitVec.ofNat 32 s.cfg.frameLen) ∧
    (cfgValid s.cfg = true →
      reads 0x005#12 (BitVec.ofNat 32 (s.cfg.nDelay + 16 * s.cfg.nReverb + 256 * s.cfg.nFft +
        4096 * s.cfg.nLine + 65536 * s.cfg.nAdsr))) ∧
    reads 0x006#12 (BitVec.ofNat 32 s.cfg.fftN) ∧
    reads 0x007#12
      (if s.cfg.fs < 2 ^ 32 then BitVec.ofNat 32 s.cfg.fs else Config.wideRegister s.cfg.fs)

/-- R43 to R48: what CSR_RD replies for each per-instance register of an instance in range; it changes
nothing. -/
def Obligations.CsrRdReadsTheUnitRegisters : Prop :=
  ∀ (s : State) (n : BitVec 8),
    let reads : BitVec 12 → Word → Prop := fun a v =>
      exec (.csrRd a n) s = .next (State.respond .ok [v] s)
    (∀ g, n.toNat < s.cfg.genCap → s.gen[n.toNat]? = some g →
      reads 0x010#12 (match g.kind with | .free => 0#32 | .sine => 1#32 | .phasor => 2#32) ∧
      reads 0x011#12 g.freq ∧ reads 0x012#12 g.ph) ∧
    (∀ d cap, n.toNat < s.cfg.nDelay → s.dly[n.toNat]? = some d → s.cfg.dlyCap[n.toNat]? = some cap →
      reads 0x100#12 (BitVec.ofNat 32 cap) ∧ reads 0x101#12 (BitVec.ofNat 32 d.wp)) ∧
    (∀ r, n.toNat < s.cfg.nReverb → s.rvb[n.toNat]? = some r →
      reads 0x200#12 (BitVec.ofNat 32 r.ridx.val) ∧
      reads 0x201#12 r.shadow.wet ∧ reads 0x202#12 r.shadow.decay ∧ reads 0x203#12 r.shadow.room ∧
      reads 0x204#12 r.shadow.cutoff ∧ reads 0x205#12 r.shadow.predelay ∧
      reads 0x209#12 r.active.wet ∧ reads 0x20A#12 r.active.decay ∧ reads 0x20B#12 r.active.room ∧
      reads 0x20C#12 r.active.cutoff ∧ reads 0x20D#12 r.active.predelay) ∧
    (∀ f, n.toNat < s.cfg.nFft → s.fft[n.toNat]? = some f →
      reads 0x300#12 (0#30 ++ BitVec.ofBool f.ready ++ BitVec.ofBool f.stage) ∧
      reads 0x301#12 (BitVec.ofNat 32 f.sidx) ∧ reads 0x302#12 (BitVec.ofNat 32 f.oidx)) ∧
    (∀ l, n.toNat < s.cfg.nLine → s.line[n.toNat]? = some l →
      reads 0x400#12 l.ntot ∧ reads 0x401#12 l.rem ∧ reads 0x402#12 l.start ∧ reads 0x403#12 l.stop) ∧
    (∀ a, n.toNat < s.cfg.nAdsr → s.adsr[n.toNat]? = some a →
      reads 0x480#12
        (match a.ph with | .attack => 0#32 | .sustain => 1#32 | .release => 2#32 | .done => 3#32) ∧
      reads 0x481#12 a.atk.ntot ∧ reads 0x482#12 a.atk.rem ∧ reads 0x483#12 a.atk.start ∧
      reads 0x484#12 a.atk.stop ∧ reads 0x485#12 a.rel.ntot ∧ reads 0x486#12 a.rel.rem ∧
      reads 0x487#12 a.rel.start ∧ reads 0x488#12 a.rel.stop)

/-- R281: CSR_WR to STATUS clears every bit of 0 to 4 whose bit of the value is 1, leaves the others, and
does not touch POISON; any other address, any instance but 0, and any `LEN` but 1, is ILLEGAL and changes
only STATUS.ILL. -/
def Obligations.CsrWrClearsStatusBits : Prop :=
  ∀ (s : State) (v : Word),
    ∃ st : Word,
      exec (.csrWr 0x000#12 0#8 v) s = .next (State.respond .ok [] { s with status := st }) ∧
      (∀ j, st.getLsbD j = (s.status.getLsbD j && !(decide (j < 5) && v.getLsbD j))) ∧
      (∀ (a : BitVec 12) (n : BitVec 8), a ≠ 0x000#12 ∨ n ≠ 0#8 →
        exec (.csrWr a n v) s =
          .next (State.respond .illegal [] { s with status := s.status ||| 0x01#32 })) ∧
      ∀ (w0 : Word) (ops : List Word), fieldOpc w0 = 0x71#8 → fieldLen w0 ≠ 1#4 →
        runCommand w0 ops s =
          .next (State.respond .illegal [] { s with status := s.status ||| 0x01#32 })

/-- R45, R53: KST is not readable: a command other than RVB_APPLY acts the same, whatever the kernels'
private states are (lists of words, log 11). -/
def Obligations.KernelStateIsNotReadable : Prop :=
  ∀ (i : Instr) (s t : State) (hide : RvbState → RvbState), i.opc ≠ 0x21#8 → exec i s = .next t →
    exec i { s with rvb := s.rvb.map fun r => { r with kst := hide r.kst } } =
      .next { t with rvb := t.rvb.map fun r => { r with kst := hide r.kst } }
end

