-- ==== Sys2Proof/Laws/Float.lean ====
section
/-! SUPPORT. Rounding (00_scope.md R9): a magnitude grows with its pattern, and a rounded magnitude stays on the
side of every binary32 value that the exact one is on. -/

namespace Sys2Proof.Machine

/-- The magnitude of a pattern without its sign, in units of 2^-149. -/
def magOf (m : Nat) : Nat :=
  if m / 0x800000 = 0 then m else (0x800000 + m % 0x800000) * 2 ^ (m / 0x800000 - 1)

theorem mag_eq_magOf (x : B32) : mag x = magOf (magBits x) := rfl

theorem magOf_lt_succ (m : Nat) : magOf m < magOf (m + 1) := by
  unfold magOf
  by_cases h0 : m / 0x800000 = 0
  · rw [if_pos h0]
    split
    · omega
    · have h1 : m + 1 = 0x800000 := by omega
      rw [h1]; norm_num; omega
  · rw [if_neg h0, if_neg (by omega)]
    by_cases h1 : m % 0x800000 + 1 = 0x800000
    · have e1 : (m + 1) / 0x800000 = m / 0x800000 + 1 := by omega
      have e2 : (m + 1) % 0x800000 = 0 := by omega
      have e3 : m % 0x800000 = 0x7FFFFF := by omega
      obtain ⟨k, hk⟩ : ∃ k, m / 0x800000 = k + 1 := ⟨_, (Nat.succ_pred_eq_of_ne_zero h0).symm⟩
      rw [e1, e2, e3, hk]
      simp only [Nat.add_sub_cancel, Nat.pow_succ]
      have := Nat.pos_of_ne_zero (Nat.pow_pos (n := k) (show 0 < 2 by omega)).ne'
      omega
    · have e1 : (m + 1) / 0x800000 = m / 0x800000 := by omega
      have e2 : (m + 1) % 0x800000 = m % 0x800000 + 1 := by omega
      rw [e1, e2]
      exact Nat.mul_lt_mul_of_pos_right (by omega) (Nat.pow_pos (by omega))

theorem magOf_strictMono : StrictMono magOf := strictMono_nat_of_lt_succ magOf_lt_succ

/-- Magnitudes are ordered as their patterns. -/
theorem mag_le_iff (x y : B32) : mag x ≤ mag y ↔ magBits x ≤ magBits y :=
  magOf_strictMono.le_iff_le

theorem mag_lt_iff (x y : B32) : mag x < mag y ↔ magBits x < magBits y :=
  magOf_strictMono.lt_iff_lt

/-- Rounding to an integer stays at or below an integer bound. -/
theorem roundEven_le {n d k : Nat} (hd : 0 < d) (h : n ≤ k * d) : roundEven n d ≤ k := by
  have hm := Nat.div_add_mod n d
  have hr := Nat.mod_lt n hd
  have hq : n / d ≤ k := Nat.div_le_of_le_mul (by rw [Nat.mul_comm]; exact h)
  unfold roundEven
  simp only
  rcases Nat.lt_or_ge (n / d) k with hlt | hge
  · split
    · omega
    · split
      · omega
      · omega
  · have : n / d = k := by omega
    have hz : n % d = 0 := by
      rw [this] at hm
      have : d * k = k * d := Nat.mul_comm _ _
      omega
    rw [hz, if_pos (by omega)]
    omega

/-- Rounding to an integer stays at or above an integer bound. -/
theorem le_roundEven {n d k : Nat} (hd : 0 < d) (h : k * d ≤ n) : k ≤ roundEven n d := by
  have hq : k ≤ n / d := (Nat.le_div_iff_mul_le hd).mpr h
  unfold roundEven
  simp only
  split
  · exact hq
  · split <;> omega

theorem log2_lt {n k : Nat} (hk : 0 < k) (h : n < 2 ^ k) : Nat.log2 n < k := by
  rcases Nat.eq_zero_or_pos n with rfl | hn
  · simpa using hk
  · exact (Nat.log2_lt (by omega)).mpr h

theorem le_log2 {n k : Nat} (h : 2 ^ k ≤ n) : k ≤ Nat.log2 n :=
  (Nat.le_log2 (by have := Nat.pow_pos (n := k) (show 0 < 2 by omega); omega)).mpr h

/-- The exponent that `roundMag` picks bounds the value on both sides. -/
theorem roundMag_exponent (n d : Nat) (hd : 0 < d) :
    n < 0x1000000 * (d * 2 ^ (Nat.log2 (n / d) - 23)) ∧
    (0 < Nat.log2 (n / d) - 23 → 0x800000 * (d * 2 ^ (Nat.log2 (n / d) - 23)) ≤ n) := by
  have key : ∀ a e : Nat, a * (d * 2 ^ e) = a * 2 ^ e * d := fun a e => by ring
  constructor
  · rw [key, ← Nat.div_lt_iff_lt_mul hd, show (0x1000000 : Nat) = 2 ^ 24 from rfl, ← pow_add]
    exact lt_of_lt_of_le Nat.lt_log2_self (Nat.pow_le_pow_right (by omega) (by omega))
  · intro he
    rw [key, ← Nat.le_div_iff_mul_le hd, show (0x800000 : Nat) = 2 ^ 23 from rfl, ← pow_add,
      show 23 + (Nat.log2 (n / d) - 23) = Nat.log2 (n / d) by omega]
    refine Nat.log2_self_le (fun h0 => ?_)
    rw [h0] at he
    simp at he

/-- A value at or below a binary32 magnitude rounds at or below it. -/
theorem roundMag_le {n d m : Nat} (hd : 0 < d) (h : n ≤ magOf m * d) : roundMag n d ≤ m := by
  have hx := roundMag_exponent n d hd
  unfold roundMag
  simp only
  generalize he : Nat.log2 (n / d) - 23 = e at hx
  have hD : 0 < d * 2 ^ e := Nat.mul_pos hd (Nat.pow_pos (by omega))
  refine le_trans (Nat.min_le_left _ _) ?_
  unfold magOf at h
  have hdiv : n / d ≤ _ := Nat.div_le_of_le_mul (by rw [Nat.mul_comm]; exact h)
  split at h
  · rename_i h0
    rw [if_pos h0] at hdiv
    have : Nat.log2 (n / d) < 23 := log2_lt (by omega) (by omega)
    obtain rfl : e = 0 := by omega
    have := roundEven_le hD (by simpa using h)
    omega
  · rename_i h0
    rw [if_neg h0] at hdiv
    obtain ⟨k, hk⟩ : ∃ k, m / 0x800000 = k + 1 := ⟨_, (Nat.succ_pred_eq_of_ne_zero h0).symm⟩
    rw [hk, Nat.add_sub_cancel] at h hdiv
    have hlt : n / d < 2 ^ (k + 24) := by
      refine lt_of_le_of_lt hdiv ?_
      rw [Nat.add_comm k, pow_add]
      exact Nat.mul_lt_mul_of_pos_right (by omega) (Nat.pow_pos (by omega))
    have hle : e ≤ k := by
      have := log2_lt (by omega) hlt
      omega
    rcases Nat.lt_or_ge e k with hlt | hge
    · have := roundEven_le hD (le_of_lt hx.1)
      omega
    · obtain rfl : e = k := by omega
      have := roundEven_le (n := n) (k := 0x800000 + m % 0x800000) hD (h.trans_eq (by ring))
      omega

/-- A value at or above a binary32 magnitude rounds at or above it. -/
theorem le_roundMag {n d m : Nat} (hd : 0 < d) (hm : m ≤ 0x7F800000) (h : magOf m * d ≤ n) :
    m ≤ roundMag n d := by
  have hx := roundMag_exponent n d hd
  unfold roundMag
  simp only
  generalize he : Nat.log2 (n / d) - 23 = e at hx
  have hD : 0 < d * 2 ^ e := Nat.mul_pos hd (Nat.pow_pos (by omega))
  refine le_min ?_ hm
  unfold magOf at h
  have hdiv := (Nat.le_div_iff_mul_le hd).mpr h
  split at h
  · rename_i h0
    rcases Nat.eq_zero_or_pos e with rfl | hpos
    · have := le_roundEven hD (by simpa using h)
      omega
    · omega
  · rename_i h0
    rw [if_neg h0] at hdiv
    obtain ⟨k, hk⟩ : ∃ k, m / 0x800000 = k + 1 := ⟨_, (Nat.succ_pred_eq_of_ne_zero h0).symm⟩
    rw [hk, Nat.add_sub_cancel] at h hdiv
    have hge : 2 ^ (23 + k) ≤ n / d := by
      refine le_trans ?_ hdiv
      rw [pow_add]
      exact Nat.mul_le_mul_right _ (by omega)
    have hle := le_log2 hge
    rcases Nat.lt_or_ge k e with hlt | hge
    · have := le_roundEven hD (hx.2 (by omega))
      omega
    · obtain rfl : e = k := by omega
      have := le_roundEven (n := n) (k := 0x800000 + m % 0x800000) hD (le_of_eq_of_le (by ring) h)
      omega

/-- A binary32 magnitude is rounded to itself. -/
theorem roundMag_magOf {m : Nat} (hm : m ≤ 0x7F800000) : roundMag (magOf m) 1 = m :=
  le_antisymm (roundMag_le (by omega) (by omega)) (le_roundMag (by omega) hm (by omega))

/-- A magnitude pattern never exceeds infinity's, and is the pattern of the rounded value. -/
theorem roundMag_le_inf (n d : Nat) : roundMag n d ≤ 0x7F800000 := Nat.min_le_right _ _

/-- A magnitude is a whole multiple of its exponent's power of two. -/
theorem magOf_dvd (m : Nat) : 2 ^ (m / 0x800000 - 1) ∣ magOf m := by
  unfold magOf
  split
  · rename_i h
    rw [h]
    exact one_dvd _
  · exact Dvd.intro_left _ rfl

/-- A multiple of a power of two with at most 24 bits above it is a binary32 magnitude. -/
theorem exists_magOf {t e : Nat} (hd : 2 ^ e ∣ t) (hb : t < 0x1000000 * 2 ^ e) :
    ∃ m, magOf m = t := by
  induction e generalizing t with
  | zero =>
    refine ⟨t, ?_⟩
    unfold magOf
    split
    · rfl
    · rw [show t / 0x800000 = 1 by omega]
      simp
      omega
  | succ e ih =>
    obtain ⟨k, rfl⟩ := hd
    by_cases hk : k < 0x800000
    · refine ih (Dvd.dvd.mul_right (pow_dvd_pow 2 (by omega)) k) ?_
      rw [pow_succ, Nat.mul_assoc, Nat.mul_comm]
      exact Nat.mul_lt_mul_of_pos_right (by omega : 2 * k < 0x1000000) (Nat.pow_pos (by omega))
    · have hk2 : k < 0x1000000 :=
        lt_of_mul_lt_mul_right (lt_of_eq_of_lt (Nat.mul_comm k _) hb) (Nat.zero_le _)
      refine ⟨(e + 2) * 0x800000 + (k - 0x800000), ?_⟩
      have e1 : ((e + 2) * 0x800000 + (k - 0x800000)) / 0x800000 = e + 2 := by omega
      have e2 : ((e + 2) * 0x800000 + (k - 0x800000)) % 0x800000 = k - 0x800000 := by omega
      unfold magOf
      rw [if_neg (by omega), e1, e2, show 0x800000 + (k - 0x800000) = k by omega, Nat.mul_comm]
      rfl

theorem magBits_ofMagBits (neg : Bool) {m : Nat} (h : m < 0x80000000) : magBits (ofMagBits neg m) = m := by
  unfold magBits ofMagBits
  rw [BitVec.toNat_ofNat]
  cases neg <;> simp <;> omega

theorem signBit_ofMagBits (neg : Bool) {m : Nat} (h : m < 0x80000000) :
    signBit (ofMagBits neg m) = neg := by
  unfold signBit ofMagBits
  rw [BitVec.msb_eq_decide, BitVec.toNat_ofNat]
  cases neg <;> simp <;> omega

theorem magBits_roundQ (neg : Bool) (n d : Nat) : magBits (roundQ neg n d) = roundMag n d :=
  magBits_ofMagBits neg (Nat.lt_of_le_of_lt (roundMag_le_inf n d) (by omega))

theorem signBit_roundQ (neg : Bool) (n d : Nat) : signBit (roundQ neg n d) = neg :=
  signBit_ofMagBits neg (Nat.lt_of_le_of_lt (roundMag_le_inf n d) (by omega))

end Sys2Proof.Machine
end

