-- ==== Sys2Proof/Laws/Memory.lean ====
section
/-! SUPPORT. The output frame buffer's bytes: what a rebuilt frame reads as, and its canonical form. -/

namespace Sys2Proof.Machine

theorem Memory.wf_nil : Memory.wf [] := ⟨List.Pairwise.nil, by simp⟩

theorem Memory.fromBytes_addr {a : Nat} {bs : List Byte} {c : Host.Cell}
    (h : c ∈ Memory.fromBytes a bs) : a ≤ c.1 ∧ c.1 < a + bs.length ∧ c.2 ≠ 0#8 := by
  induction bs generalizing a with
  | nil => simp [Memory.fromBytes] at h
  | cons b bs ih =>
    unfold Memory.fromBytes at h
    split at h
    · obtain ⟨h1, h2, h3⟩ := ih h
      exact ⟨by omega, by simp only [List.length_cons]; omega, h3⟩
    · rename_i hb
      rcases List.mem_cons.mp h with rfl | h
      · exact ⟨Nat.le_refl _, by simp, hb⟩
      · obtain ⟨h1, h2, h3⟩ := ih h
        exact ⟨by omega, by simp only [List.length_cons]; omega, h3⟩

theorem Memory.fromBytes_wf (a : Nat) (bs : List Byte) : (Memory.fromBytes a bs).wf := by
  refine ⟨?_, fun c hc => (Memory.fromBytes_addr hc).2.2⟩
  induction bs generalizing a with
  | nil => simp [Memory.fromBytes]
  | cons b bs ih =>
    unfold Memory.fromBytes
    split
    · exact ih (a + 1)
    · refine List.pairwise_cons.mpr ⟨fun c hc => ?_, ih (a + 1)⟩
      have := (Memory.fromBytes_addr hc).1
      omega

theorem Memory.read_nil (a : Nat) : Memory.read [] a = 0#8 := rfl

theorem Memory.read_cons (c : Host.Cell) (m : Memory) (a : Nat) :
    Memory.read (c :: m) a = if a = c.1 then c.2 else m.read a := by
  unfold Memory.read
  rw [List.lookup_cons]
  by_cases h : a = c.1
  · simp [h]
  · simp [h, beq_eq_false_iff_ne.mpr h]

/-- A byte below the first listed address reads 0. -/
theorem Memory.fromBytes_read_below {a b : Nat} (bs : List Byte) (h : b < a) :
    (Memory.fromBytes a bs).read b = 0#8 := by
  induction bs generalizing a with
  | nil => rfl
  | cons x bs ih =>
    unfold Memory.fromBytes
    split
    · exact ih (by omega)
    · rw [Memory.read_cons, if_neg (by show b ≠ a; omega)]; exact ih (by omega)

/-- A rebuilt frame reads as its bytes, and as 0 beyond them. -/
theorem Memory.fromBytes_read (a k : Nat) (bs : List Byte) :
    (Memory.fromBytes a bs).read (a + k) = bs.getD k 0#8 := by
  induction bs generalizing a k with
  | nil => rfl
  | cons x bs ih =>
    unfold Memory.fromBytes
    cases k with
    | zero =>
      split
      · rename_i hx; rw [Memory.fromBytes_read_below _ (by omega)]; simp [hx]
      · rw [Memory.read_cons]; simp
    | succ k =>
      have e : a + (k + 1) = a + 1 + k := by omega
      split
      · rw [e, ih]; simp
      · rw [Memory.read_cons, if_neg (by show a + (k + 1) ≠ a; omega), e, ih]; simp

theorem Memory.fromBytes_read_zero (k : Nat) (bs : List Byte) :
    (Memory.fromBytes 0 bs).read k = bs.getD k 0#8 := by
  simpa using Memory.fromBytes_read 0 k bs

/-- The bytes of a list of samples, two for each. -/
theorem sampleBytes_flatMap_getD (qs : List Sample) (p b : Nat) (hb : b < 2) :
    (qs.flatMap sampleBytes).getD (2 * p + b) 0#8 = (sampleBytes (qs.getD p 0#16)).getD b 0#8 := by
  induction qs generalizing p with
  | nil =>
    rcases b with _ | _ | b
    · simp [sampleBytes]
    · simp [sampleBytes]
    · omega
  | cons q qs ih =>
    cases p with
    | zero =>
      rcases b with _ | _ | b
      · simp [sampleBytes]
      · simp [sampleBytes]
      · omega
    | succ p =>
      have e : 2 * (p + 1) + b = (2 * p + b) + 2 := by omega
      rw [List.flatMap_cons, e, sampleBytes]
      simpa using ih p

theorem sampleBytes_flatMap_length (qs : List Sample) : (qs.flatMap sampleBytes).length = 2 * qs.length := by
  induction qs with
  | nil => rfl
  | cons q qs ih => rw [List.flatMap_cons, List.length_append, ih]; simp [sampleBytes]; omega

theorem sample_of_bytes (q : Sample) : q.extractLsb' 8 8 ++ q.extractLsb' 0 8 = q := by
  ext i hi
  simp only [BitVec.getElem_append, BitVec.getElem_extractLsb']
  split
  · rw [BitVec.getLsbD_eq_getElem (by omega)]; simp
  · rename_i h
    rw [show 8 + (i - 8) = i by omega, BitVec.getLsbD_eq_getElem (by omega)]

/-- Sample `k`, channel `c` of a frame built from a list of samples in frame order. -/
theorem Memory.fromBytes_sample (qs : List Sample) (k c : Nat) :
    (Memory.fromBytes 0 (qs.flatMap sampleBytes)).sample k c = qs.getD (2 * k + c) 0#16 := by
  unfold Memory.sample
  rw [Memory.fromBytes_read_zero, Memory.fromBytes_read_zero]
  rw [show 4 * k + 2 * c + 1 = 2 * (2 * k + c) + 1 by omega,
    show 4 * k + 2 * c = 2 * (2 * k + c) + 0 by omega,
    sampleBytes_flatMap_getD _ _ _ (by omega), sampleBytes_flatMap_getD _ _ _ (by omega)]
  exact sample_of_bytes _

end Sys2Proof.Machine
end

