-- ==== Sys2Proof/Laws/Operands.lean ====
section
/-! SUPPORT. What the operand forms can answer: an index, a generator handle, a register's value. -/

namespace Sys2Proof.Machine

variable {α : Type}

theorem unitAt_eq_some {count : Nat} {us : List α} {i : BitVec 8} {u : α} :
    unitAt count us i = some u ↔ i.toNat < count ∧ us[i.toNat]? = some u := by
  unfold unitAt; split <;> simp_all

theorem unitAt_of_lt {count : Nat} {us : List α} {i : BitVec 8} (h : i.toNat < count)
    (hl : us.length = count) : ∃ u, unitAt count us i = some u :=
  ⟨us[i.toNat], unitAt_eq_some.mpr ⟨h, by simp [hl, h]⟩⟩

theorem unitAt_of_le {count : Nat} {us : List α} {i : BitVec 8} (h : count ≤ i.toNat) :
    unitAt count us i = none := by
  unfold unitAt; rw [if_neg (by omega)]

theorem unitAt_mem {count : Nat} {us : List α} {i : BitVec 8} {u : α}
    (h : unitAt count us i = some u) : u ∈ us := by
  obtain ⟨_, h⟩ := unitAt_eq_some.mp h
  exact List.mem_of_getElem? h

theorem liveGen_eq_some {s : State} {h : BitVec 8} {g : GenSlot} :
    s.liveGen h = some g ↔ h.toNat < s.cfg.genCap ∧ s.gen[h.toNat]? = some g ∧ g.kind ≠ .free := by
  unfold State.liveGen
  cases hu : unitAt s.cfg.genCap s.gen h with
  | none =>
    simp only [reduceCtorEq, false_iff]
    rintro ⟨h1, h2, -⟩
    simp [unitAt_eq_some.mpr ⟨h1, h2⟩] at hu
  | some g' =>
    have := unitAt_eq_some.mp hu
    by_cases hk : g'.kind = .free
    · simp only [if_pos hk, reduceCtorEq, this, true_and, Option.some.injEq, false_iff]
      rintro ⟨rfl, h⟩; exact h hk
    · simp only [if_neg hk, Option.some.injEq, this, true_and]
      constructor
      · rintro rfl; exact ⟨rfl, hk⟩
      · exact fun h => h.1

/-- A register reads its parameter where 32 bits hold it. -/
theorem paramWord_of_lt {n : Nat} (h : n < 2 ^ 32) : (paramWord n).toNat = n := by
  rw [paramWord, if_pos h, BitVec.toNat_ofNat, Nat.mod_eq_of_lt h]

theorem paramWord_of_le {n : Nat} (h : 2 ^ 32 ≤ n) : paramWord n = Config.wideRegister n := by
  rw [paramWord, if_neg (Nat.not_lt.mpr h)]

end Sys2Proof.Machine
end

