-- ==== Sys2Proof/Laws/State.lean ====
section
/-! SUPPORT. What every update of the state leaves in every field, one lemma for each pair, so that no proof
unfolds a record update. -/

namespace Sys2Proof.Machine

variable (s : State)

@[simp] theorem State.orStatus_cfg (b : Word) :
    (State.orStatus b s).cfg = s.cfg := rfl
@[simp] theorem State.orStatus_pc (b : Word) :
    (State.orStatus b s).pc = s.pc := rfl
@[simp] theorem State.orStatus_stream (b : Word) :
    (State.orStatus b s).stream = s.stream := rfl
@[simp] theorem State.orStatus_responses (b : Word) :
    (State.orStatus b s).responses = s.responses := rfl
@[simp] theorem State.orStatus_gen (b : Word) :
    (State.orStatus b s).gen = s.gen := rfl
@[simp] theorem State.orStatus_dly (b : Word) :
    (State.orStatus b s).dly = s.dly := rfl
@[simp] theorem State.orStatus_rvb (b : Word) :
    (State.orStatus b s).rvb = s.rvb := rfl
@[simp] theorem State.orStatus_fft (b : Word) :
    (State.orStatus b s).fft = s.fft := rfl
@[simp] theorem State.orStatus_line (b : Word) :
    (State.orStatus b s).line = s.line := rfl
@[simp] theorem State.orStatus_adsr (b : Word) :
    (State.orStatus b s).adsr = s.adsr := rfl
@[simp] theorem State.orStatus_trk (b : Word) :
    (State.orStatus b s).trk = s.trk := rfl
@[simp] theorem State.orStatus_mem (b : Word) :
    (State.orStatus b s).mem = s.mem := rfl
@[simp] theorem State.orStatus_status (b : Word) :
    (State.orStatus b s).status = s.status ||| b := rfl
@[simp] theorem State.orStatus_poison (b : Word) :
    (State.orStatus b s).poison = s.poison := rfl
@[simp] theorem State.orStatus_draws (b : Word) :
    (State.orStatus b s).draws = s.draws := rfl
@[simp] theorem State.orStatus_sinkReads (b : Word) :
    (State.orStatus b s).sinkReads = s.sinkReads := rfl

@[simp] theorem State.clearStatus_cfg (v : Word) :
    (State.clearStatus v s).cfg = s.cfg := rfl
@[simp] theorem State.clearStatus_pc (v : Word) :
    (State.clearStatus v s).pc = s.pc := rfl
@[simp] theorem State.clearStatus_stream (v : Word) :
    (State.clearStatus v s).stream = s.stream := rfl
@[simp] theorem State.clearStatus_responses (v : Word) :
    (State.clearStatus v s).responses = s.responses := rfl
@[simp] theorem State.clearStatus_gen (v : Word) :
    (State.clearStatus v s).gen = s.gen := rfl
@[simp] theorem State.clearStatus_dly (v : Word) :
    (State.clearStatus v s).dly = s.dly := rfl
@[simp] theorem State.clearStatus_rvb (v : Word) :
    (State.clearStatus v s).rvb = s.rvb := rfl
@[simp] theorem State.clearStatus_fft (v : Word) :
    (State.clearStatus v s).fft = s.fft := rfl
@[simp] theorem State.clearStatus_line (v : Word) :
    (State.clearStatus v s).line = s.line := rfl
@[simp] theorem State.clearStatus_adsr (v : Word) :
    (State.clearStatus v s).adsr = s.adsr := rfl
@[simp] theorem State.clearStatus_trk (v : Word) :
    (State.clearStatus v s).trk = s.trk := rfl
@[simp] theorem State.clearStatus_mem (v : Word) :
    (State.clearStatus v s).mem = s.mem := rfl
@[simp] theorem State.clearStatus_status (v : Word) :
    (State.clearStatus v s).status = s.status &&& ~~~(v &&& statusMask) := rfl
@[simp] theorem State.clearStatus_poison (v : Word) :
    (State.clearStatus v s).poison = s.poison := rfl
@[simp] theorem State.clearStatus_draws (v : Word) :
    (State.clearStatus v s).draws = s.draws := rfl
@[simp] theorem State.clearStatus_sinkReads (v : Word) :
    (State.clearStatus v s).sinkReads = s.sinkReads := rfl

@[simp] theorem State.flagPrecond_cfg :
    (State.flagPrecond s).cfg = s.cfg := rfl
@[simp] theorem State.flagPrecond_pc :
    (State.flagPrecond s).pc = s.pc := rfl
@[simp] theorem State.flagPrecond_stream :
    (State.flagPrecond s).stream = s.stream := rfl
@[simp] theorem State.flagPrecond_responses :
    (State.flagPrecond s).responses = s.responses := rfl
@[simp] theorem State.flagPrecond_gen :
    (State.flagPrecond s).gen = s.gen := rfl
@[simp] theorem State.flagPrecond_dly :
    (State.flagPrecond s).dly = s.dly := rfl
@[simp] theorem State.flagPrecond_rvb :
    (State.flagPrecond s).rvb = s.rvb := rfl
@[simp] theorem State.flagPrecond_fft :
    (State.flagPrecond s).fft = s.fft := rfl
@[simp] theorem State.flagPrecond_line :
    (State.flagPrecond s).line = s.line := rfl
@[simp] theorem State.flagPrecond_adsr :
    (State.flagPrecond s).adsr = s.adsr := rfl
@[simp] theorem State.flagPrecond_trk :
    (State.flagPrecond s).trk = s.trk := rfl
@[simp] theorem State.flagPrecond_mem :
    (State.flagPrecond s).mem = s.mem := rfl
@[simp] theorem State.flagPrecond_status :
    (State.flagPrecond s).status = s.status ||| statusBit .precond := rfl
@[simp] theorem State.flagPrecond_poison :
    (State.flagPrecond s).poison = true := rfl
@[simp] theorem State.flagPrecond_draws :
    (State.flagPrecond s).draws = s.draws := rfl
@[simp] theorem State.flagPrecond_sinkReads :
    (State.flagPrecond s).sinkReads = s.sinkReads := rfl

@[simp] theorem State.skipDraws_cfg (n : Nat) :
    (State.skipDraws n s).cfg = s.cfg := rfl
@[simp] theorem State.skipDraws_pc (n : Nat) :
    (State.skipDraws n s).pc = s.pc := rfl
@[simp] theorem State.skipDraws_stream (n : Nat) :
    (State.skipDraws n s).stream = s.stream := rfl
@[simp] theorem State.skipDraws_responses (n : Nat) :
    (State.skipDraws n s).responses = s.responses := rfl
@[simp] theorem State.skipDraws_gen (n : Nat) :
    (State.skipDraws n s).gen = s.gen := rfl
@[simp] theorem State.skipDraws_dly (n : Nat) :
    (State.skipDraws n s).dly = s.dly := rfl
@[simp] theorem State.skipDraws_rvb (n : Nat) :
    (State.skipDraws n s).rvb = s.rvb := rfl
@[simp] theorem State.skipDraws_fft (n : Nat) :
    (State.skipDraws n s).fft = s.fft := rfl
@[simp] theorem State.skipDraws_line (n : Nat) :
    (State.skipDraws n s).line = s.line := rfl
@[simp] theorem State.skipDraws_adsr (n : Nat) :
    (State.skipDraws n s).adsr = s.adsr := rfl
@[simp] theorem State.skipDraws_trk (n : Nat) :
    (State.skipDraws n s).trk = s.trk := rfl
@[simp] theorem State.skipDraws_mem (n : Nat) :
    (State.skipDraws n s).mem = s.mem := rfl
@[simp] theorem State.skipDraws_status (n : Nat) :
    (State.skipDraws n s).status = s.status := rfl
@[simp] theorem State.skipDraws_poison (n : Nat) :
    (State.skipDraws n s).poison = s.poison := rfl
@[simp] theorem State.skipDraws_draws (n : Nat) :
    (State.skipDraws n s).draws = s.draws + n := rfl
@[simp] theorem State.skipDraws_sinkReads (n : Nat) :
    (State.skipDraws n s).sinkReads = s.sinkReads := rfl

@[simp] theorem State.respond_cfg (c : RespCode) (d : List Word) :
    (State.respond c d s).cfg = s.cfg := rfl
@[simp] theorem State.respond_pc (c : RespCode) (d : List Word) :
    (State.respond c d s).pc = s.pc := rfl
@[simp] theorem State.respond_stream (c : RespCode) (d : List Word) :
    (State.respond c d s).stream = s.stream := rfl
@[simp] theorem State.respond_responses (c : RespCode) (d : List Word) :
    (State.respond c d s).responses = s.responses ++ [⟨c, s.replyData d⟩] := rfl
@[simp] theorem State.respond_gen (c : RespCode) (d : List Word) :
    (State.respond c d s).gen = s.gen := rfl
@[simp] theorem State.respond_dly (c : RespCode) (d : List Word) :
    (State.respond c d s).dly = s.dly := rfl
@[simp] theorem State.respond_rvb (c : RespCode) (d : List Word) :
    (State.respond c d s).rvb = s.rvb := rfl
@[simp] theorem State.respond_fft (c : RespCode) (d : List Word) :
    (State.respond c d s).fft = s.fft := rfl
@[simp] theorem State.respond_line (c : RespCode) (d : List Word) :
    (State.respond c d s).line = s.line := rfl
@[simp] theorem State.respond_adsr (c : RespCode) (d : List Word) :
    (State.respond c d s).adsr = s.adsr := rfl
@[simp] theorem State.respond_trk (c : RespCode) (d : List Word) :
    (State.respond c d s).trk = s.trk := rfl
@[simp] theorem State.respond_mem (c : RespCode) (d : List Word) :
    (State.respond c d s).mem = s.mem := rfl
@[simp] theorem State.respond_status (c : RespCode) (d : List Word) :
    (State.respond c d s).status = s.status := rfl
@[simp] theorem State.respond_poison (c : RespCode) (d : List Word) :
    (State.respond c d s).poison = s.poison := rfl
@[simp] theorem State.respond_draws (c : RespCode) (d : List Word) :
    (State.respond c d s).draws = s.draws + (if s.poison then d.length else 0) := rfl
@[simp] theorem State.respond_sinkReads (c : RespCode) (d : List Word) :
    (State.respond c d s).sinkReads = s.sinkReads := rfl

@[simp] theorem State.consume_cfg (r : List Word) :
    (State.consume r s).cfg = s.cfg := rfl
@[simp] theorem State.consume_pc (r : List Word) :
    (State.consume r s).pc = s.pc + 1 := rfl
@[simp] theorem State.consume_stream (r : List Word) :
    (State.consume r s).stream = r := rfl
@[simp] theorem State.consume_responses (r : List Word) :
    (State.consume r s).responses = s.responses := rfl
@[simp] theorem State.consume_gen (r : List Word) :
    (State.consume r s).gen = s.gen := rfl
@[simp] theorem State.consume_dly (r : List Word) :
    (State.consume r s).dly = s.dly := rfl
@[simp] theorem State.consume_rvb (r : List Word) :
    (State.consume r s).rvb = s.rvb := rfl
@[simp] theorem State.consume_fft (r : List Word) :
    (State.consume r s).fft = s.fft := rfl
@[simp] theorem State.consume_line (r : List Word) :
    (State.consume r s).line = s.line := rfl
@[simp] theorem State.consume_adsr (r : List Word) :
    (State.consume r s).adsr = s.adsr := rfl
@[simp] theorem State.consume_trk (r : List Word) :
    (State.consume r s).trk = s.trk := rfl
@[simp] theorem State.consume_mem (r : List Word) :
    (State.consume r s).mem = s.mem := rfl
@[simp] theorem State.consume_status (r : List Word) :
    (State.consume r s).status = s.status := rfl
@[simp] theorem State.consume_poison (r : List Word) :
    (State.consume r s).poison = s.poison := rfl
@[simp] theorem State.consume_draws (r : List Word) :
    (State.consume r s).draws = s.draws := rfl
@[simp] theorem State.consume_sinkReads (r : List Word) :
    (State.consume r s).sinkReads = s.sinkReads := rfl

@[simp] theorem State.setGen_cfg (h : Nat) (g : GenSlot) :
    (State.setGen h g s).cfg = s.cfg := rfl
@[simp] theorem State.setGen_pc (h : Nat) (g : GenSlot) :
    (State.setGen h g s).pc = s.pc := rfl
@[simp] theorem State.setGen_stream (h : Nat) (g : GenSlot) :
    (State.setGen h g s).stream = s.stream := rfl
@[simp] theorem State.setGen_responses (h : Nat) (g : GenSlot) :
    (State.setGen h g s).responses = s.responses := rfl
@[simp] theorem State.setGen_gen (h : Nat) (g : GenSlot) :
    (State.setGen h g s).gen = s.gen.set h g := rfl
@[simp] theorem State.setGen_dly (h : Nat) (g : GenSlot) :
    (State.setGen h g s).dly = s.dly := rfl
@[simp] theorem State.setGen_rvb (h : Nat) (g : GenSlot) :
    (State.setGen h g s).rvb = s.rvb := rfl
@[simp] theorem State.setGen_fft (h : Nat) (g : GenSlot) :
    (State.setGen h g s).fft = s.fft := rfl
@[simp] theorem State.setGen_line (h : Nat) (g : GenSlot) :
    (State.setGen h g s).line = s.line := rfl
@[simp] theorem State.setGen_adsr (h : Nat) (g : GenSlot) :
    (State.setGen h g s).adsr = s.adsr := rfl
@[simp] theorem State.setGen_trk (h : Nat) (g : GenSlot) :
    (State.setGen h g s).trk = s.trk := rfl
@[simp] theorem State.setGen_mem (h : Nat) (g : GenSlot) :
    (State.setGen h g s).mem = s.mem := rfl
@[simp] theorem State.setGen_status (h : Nat) (g : GenSlot) :
    (State.setGen h g s).status = s.status := rfl
@[simp] theorem State.setGen_poison (h : Nat) (g : GenSlot) :
    (State.setGen h g s).poison = s.poison := rfl
@[simp] theorem State.setGen_draws (h : Nat) (g : GenSlot) :
    (State.setGen h g s).draws = s.draws := rfl
@[simp] theorem State.setGen_sinkReads (h : Nat) (g : GenSlot) :
    (State.setGen h g s).sinkReads = s.sinkReads := rfl

@[simp] theorem State.setGens_cfg (g : List GenSlot) :
    (State.setGens g s).cfg = s.cfg := rfl
@[simp] theorem State.setGens_pc (g : List GenSlot) :
    (State.setGens g s).pc = s.pc := rfl
@[simp] theorem State.setGens_stream (g : List GenSlot) :
    (State.setGens g s).stream = s.stream := rfl
@[simp] theorem State.setGens_responses (g : List GenSlot) :
    (State.setGens g s).responses = s.responses := rfl
@[simp] theorem State.setGens_gen (g : List GenSlot) :
    (State.setGens g s).gen = g := rfl
@[simp] theorem State.setGens_dly (g : List GenSlot) :
    (State.setGens g s).dly = s.dly := rfl
@[simp] theorem State.setGens_rvb (g : List GenSlot) :
    (State.setGens g s).rvb = s.rvb := rfl
@[simp] theorem State.setGens_fft (g : List GenSlot) :
    (State.setGens g s).fft = s.fft := rfl
@[simp] theorem State.setGens_line (g : List GenSlot) :
    (State.setGens g s).line = s.line := rfl
@[simp] theorem State.setGens_adsr (g : List GenSlot) :
    (State.setGens g s).adsr = s.adsr := rfl
@[simp] theorem State.setGens_trk (g : List GenSlot) :
    (State.setGens g s).trk = s.trk := rfl
@[simp] theorem State.setGens_mem (g : List GenSlot) :
    (State.setGens g s).mem = s.mem := rfl
@[simp] theorem State.setGens_status (g : List GenSlot) :
    (State.setGens g s).status = s.status := rfl
@[simp] theorem State.setGens_poison (g : List GenSlot) :
    (State.setGens g s).poison = s.poison := rfl
@[simp] theorem State.setGens_draws (g : List GenSlot) :
    (State.setGens g s).draws = s.draws := rfl
@[simp] theorem State.setGens_sinkReads (g : List GenSlot) :
    (State.setGens g s).sinkReads = s.sinkReads := rfl

@[simp] theorem State.setDly_cfg (i : Nat) (d : Delay) :
    (State.setDly i d s).cfg = s.cfg := rfl
@[simp] theorem State.setDly_pc (i : Nat) (d : Delay) :
    (State.setDly i d s).pc = s.pc := rfl
@[simp] theorem State.setDly_stream (i : Nat) (d : Delay) :
    (State.setDly i d s).stream = s.stream := rfl
@[simp] theorem State.setDly_responses (i : Nat) (d : Delay) :
    (State.setDly i d s).responses = s.responses := rfl
@[simp] theorem State.setDly_gen (i : Nat) (d : Delay) :
    (State.setDly i d s).gen = s.gen := rfl
@[simp] theorem State.setDly_dly (i : Nat) (d : Delay) :
    (State.setDly i d s).dly = s.dly.set i d := rfl
@[simp] theorem State.setDly_rvb (i : Nat) (d : Delay) :
    (State.setDly i d s).rvb = s.rvb := rfl
@[simp] theorem State.setDly_fft (i : Nat) (d : Delay) :
    (State.setDly i d s).fft = s.fft := rfl
@[simp] theorem State.setDly_line (i : Nat) (d : Delay) :
    (State.setDly i d s).line = s.line := rfl
@[simp] theorem State.setDly_adsr (i : Nat) (d : Delay) :
    (State.setDly i d s).adsr = s.adsr := rfl
@[simp] theorem State.setDly_trk (i : Nat) (d : Delay) :
    (State.setDly i d s).trk = s.trk := rfl
@[simp] theorem State.setDly_mem (i : Nat) (d : Delay) :
    (State.setDly i d s).mem = s.mem := rfl
@[simp] theorem State.setDly_status (i : Nat) (d : Delay) :
    (State.setDly i d s).status = s.status := rfl
@[simp] theorem State.setDly_poison (i : Nat) (d : Delay) :
    (State.setDly i d s).poison = s.poison := rfl
@[simp] theorem State.setDly_draws (i : Nat) (d : Delay) :
    (State.setDly i d s).draws = s.draws := rfl
@[simp] theorem State.setDly_sinkReads (i : Nat) (d : Delay) :
    (State.setDly i d s).sinkReads = s.sinkReads := rfl

@[simp] theorem State.setRvb_cfg (i : Nat) (r : Reverb) :
    (State.setRvb i r s).cfg = s.cfg := rfl
@[simp] theorem State.setRvb_pc (i : Nat) (r : Reverb) :
    (State.setRvb i r s).pc = s.pc := rfl
@[simp] theorem State.setRvb_stream (i : Nat) (r : Reverb) :
    (State.setRvb i r s).stream = s.stream := rfl
@[simp] theorem State.setRvb_responses (i : Nat) (r : Reverb) :
    (State.setRvb i r s).responses = s.responses := rfl
@[simp] theorem State.setRvb_gen (i : Nat) (r : Reverb) :
    (State.setRvb i r s).gen = s.gen := rfl
@[simp] theorem State.setRvb_dly (i : Nat) (r : Reverb) :
    (State.setRvb i r s).dly = s.dly := rfl
@[simp] theorem State.setRvb_rvb (i : Nat) (r : Reverb) :
    (State.setRvb i r s).rvb = s.rvb.set i r := rfl
@[simp] theorem State.setRvb_fft (i : Nat) (r : Reverb) :
    (State.setRvb i r s).fft = s.fft := rfl
@[simp] theorem State.setRvb_line (i : Nat) (r : Reverb) :
    (State.setRvb i r s).line = s.line := rfl
@[simp] theorem State.setRvb_adsr (i : Nat) (r : Reverb) :
    (State.setRvb i r s).adsr = s.adsr := rfl
@[simp] theorem State.setRvb_trk (i : Nat) (r : Reverb) :
    (State.setRvb i r s).trk = s.trk := rfl
@[simp] theorem State.setRvb_mem (i : Nat) (r : Reverb) :
    (State.setRvb i r s).mem = s.mem := rfl
@[simp] theorem State.setRvb_status (i : Nat) (r : Reverb) :
    (State.setRvb i r s).status = s.status := rfl
@[simp] theorem State.setRvb_poison (i : Nat) (r : Reverb) :
    (State.setRvb i r s).poison = s.poison := rfl
@[simp] theorem State.setRvb_draws (i : Nat) (r : Reverb) :
    (State.setRvb i r s).draws = s.draws := rfl
@[simp] theorem State.setRvb_sinkReads (i : Nat) (r : Reverb) :
    (State.setRvb i r s).sinkReads = s.sinkReads := rfl

@[simp] theorem State.setFft_cfg (i : Nat) (f : Spectral) :
    (State.setFft i f s).cfg = s.cfg := rfl
@[simp] theorem State.setFft_pc (i : Nat) (f : Spectral) :
    (State.setFft i f s).pc = s.pc := rfl
@[simp] theorem State.setFft_stream (i : Nat) (f : Spectral) :
    (State.setFft i f s).stream = s.stream := rfl
@[simp] theorem State.setFft_responses (i : Nat) (f : Spectral) :
    (State.setFft i f s).responses = s.responses := rfl
@[simp] theorem State.setFft_gen (i : Nat) (f : Spectral) :
    (State.setFft i f s).gen = s.gen := rfl
@[simp] theorem State.setFft_dly (i : Nat) (f : Spectral) :
    (State.setFft i f s).dly = s.dly := rfl
@[simp] theorem State.setFft_rvb (i : Nat) (f : Spectral) :
    (State.setFft i f s).rvb = s.rvb := rfl
@[simp] theorem State.setFft_fft (i : Nat) (f : Spectral) :
    (State.setFft i f s).fft = s.fft.set i f := rfl
@[simp] theorem State.setFft_line (i : Nat) (f : Spectral) :
    (State.setFft i f s).line = s.line := rfl
@[simp] theorem State.setFft_adsr (i : Nat) (f : Spectral) :
    (State.setFft i f s).adsr = s.adsr := rfl
@[simp] theorem State.setFft_trk (i : Nat) (f : Spectral) :
    (State.setFft i f s).trk = s.trk := rfl
@[simp] theorem State.setFft_mem (i : Nat) (f : Spectral) :
    (State.setFft i f s).mem = s.mem := rfl
@[simp] theorem State.setFft_status (i : Nat) (f : Spectral) :
    (State.setFft i f s).status = s.status := rfl
@[simp] theorem State.setFft_poison (i : Nat) (f : Spectral) :
    (State.setFft i f s).poison = s.poison := rfl
@[simp] theorem State.setFft_draws (i : Nat) (f : Spectral) :
    (State.setFft i f s).draws = s.draws := rfl
@[simp] theorem State.setFft_sinkReads (i : Nat) (f : Spectral) :
    (State.setFft i f s).sinkReads = s.sinkReads := rfl

@[simp] theorem State.setLine_cfg (j : Nat) (l : Line) :
    (State.setLine j l s).cfg = s.cfg := rfl
@[simp] theorem State.setLine_pc (j : Nat) (l : Line) :
    (State.setLine j l s).pc = s.pc := rfl
@[simp] theorem State.setLine_stream (j : Nat) (l : Line) :
    (State.setLine j l s).stream = s.stream := rfl
@[simp] theorem State.setLine_responses (j : Nat) (l : Line) :
    (State.setLine j l s).responses = s.responses := rfl
@[simp] theorem State.setLine_gen (j : Nat) (l : Line) :
    (State.setLine j l s).gen = s.gen := rfl
@[simp] theorem State.setLine_dly (j : Nat) (l : Line) :
    (State.setLine j l s).dly = s.dly := rfl
@[simp] theorem State.setLine_rvb (j : Nat) (l : Line) :
    (State.setLine j l s).rvb = s.rvb := rfl
@[simp] theorem State.setLine_fft (j : Nat) (l : Line) :
    (State.setLine j l s).fft = s.fft := rfl
@[simp] theorem State.setLine_line (j : Nat) (l : Line) :
    (State.setLine j l s).line = s.line.set j l := rfl
@[simp] theorem State.setLine_adsr (j : Nat) (l : Line) :
    (State.setLine j l s).adsr = s.adsr := rfl
@[simp] theorem State.setLine_trk (j : Nat) (l : Line) :
    (State.setLine j l s).trk = s.trk := rfl
@[simp] theorem State.setLine_mem (j : Nat) (l : Line) :
    (State.setLine j l s).mem = s.mem := rfl
@[simp] theorem State.setLine_status (j : Nat) (l : Line) :
    (State.setLine j l s).status = s.status := rfl
@[simp] theorem State.setLine_poison (j : Nat) (l : Line) :
    (State.setLine j l s).poison = s.poison := rfl
@[simp] theorem State.setLine_draws (j : Nat) (l : Line) :
    (State.setLine j l s).draws = s.draws := rfl
@[simp] theorem State.setLine_sinkReads (j : Nat) (l : Line) :
    (State.setLine j l s).sinkReads = s.sinkReads := rfl

@[simp] theorem State.setAdsr_cfg (e : Nat) (a : Adsr) :
    (State.setAdsr e a s).cfg = s.cfg := rfl
@[simp] theorem State.setAdsr_pc (e : Nat) (a : Adsr) :
    (State.setAdsr e a s).pc = s.pc := rfl
@[simp] theorem State.setAdsr_stream (e : Nat) (a : Adsr) :
    (State.setAdsr e a s).stream = s.stream := rfl
@[simp] theorem State.setAdsr_responses (e : Nat) (a : Adsr) :
    (State.setAdsr e a s).responses = s.responses := rfl
@[simp] theorem State.setAdsr_gen (e : Nat) (a : Adsr) :
    (State.setAdsr e a s).gen = s.gen := rfl
@[simp] theorem State.setAdsr_dly (e : Nat) (a : Adsr) :
    (State.setAdsr e a s).dly = s.dly := rfl
@[simp] theorem State.setAdsr_rvb (e : Nat) (a : Adsr) :
    (State.setAdsr e a s).rvb = s.rvb := rfl
@[simp] theorem State.setAdsr_fft (e : Nat) (a : Adsr) :
    (State.setAdsr e a s).fft = s.fft := rfl
@[simp] theorem State.setAdsr_line (e : Nat) (a : Adsr) :
    (State.setAdsr e a s).line = s.line := rfl
@[simp] theorem State.setAdsr_adsr (e : Nat) (a : Adsr) :
    (State.setAdsr e a s).adsr = s.adsr.set e a := rfl
@[simp] theorem State.setAdsr_trk (e : Nat) (a : Adsr) :
    (State.setAdsr e a s).trk = s.trk := rfl
@[simp] theorem State.setAdsr_mem (e : Nat) (a : Adsr) :
    (State.setAdsr e a s).mem = s.mem := rfl
@[simp] theorem State.setAdsr_status (e : Nat) (a : Adsr) :
    (State.setAdsr e a s).status = s.status := rfl
@[simp] theorem State.setAdsr_poison (e : Nat) (a : Adsr) :
    (State.setAdsr e a s).poison = s.poison := rfl
@[simp] theorem State.setAdsr_draws (e : Nat) (a : Adsr) :
    (State.setAdsr e a s).draws = s.draws := rfl
@[simp] theorem State.setAdsr_sinkReads (e : Nat) (a : Adsr) :
    (State.setAdsr e a s).sinkReads = s.sinkReads := rfl

@[simp] theorem State.setTrk_cfg (t : Nat) (b : List Stereo) :
    (State.setTrk t b s).cfg = s.cfg := rfl
@[simp] theorem State.setTrk_pc (t : Nat) (b : List Stereo) :
    (State.setTrk t b s).pc = s.pc := rfl
@[simp] theorem State.setTrk_stream (t : Nat) (b : List Stereo) :
    (State.setTrk t b s).stream = s.stream := rfl
@[simp] theorem State.setTrk_responses (t : Nat) (b : List Stereo) :
    (State.setTrk t b s).responses = s.responses := rfl
@[simp] theorem State.setTrk_gen (t : Nat) (b : List Stereo) :
    (State.setTrk t b s).gen = s.gen := rfl
@[simp] theorem State.setTrk_dly (t : Nat) (b : List Stereo) :
    (State.setTrk t b s).dly = s.dly := rfl
@[simp] theorem State.setTrk_rvb (t : Nat) (b : List Stereo) :
    (State.setTrk t b s).rvb = s.rvb := rfl
@[simp] theorem State.setTrk_fft (t : Nat) (b : List Stereo) :
    (State.setTrk t b s).fft = s.fft := rfl
@[simp] theorem State.setTrk_line (t : Nat) (b : List Stereo) :
    (State.setTrk t b s).line = s.line := rfl
@[simp] theorem State.setTrk_adsr (t : Nat) (b : List Stereo) :
    (State.setTrk t b s).adsr = s.adsr := rfl
@[simp] theorem State.setTrk_trk (t : Nat) (b : List Stereo) :
    (State.setTrk t b s).trk = s.trk.set t b := rfl
@[simp] theorem State.setTrk_mem (t : Nat) (b : List Stereo) :
    (State.setTrk t b s).mem = s.mem := rfl
@[simp] theorem State.setTrk_status (t : Nat) (b : List Stereo) :
    (State.setTrk t b s).status = s.status := rfl
@[simp] theorem State.setTrk_poison (t : Nat) (b : List Stereo) :
    (State.setTrk t b s).poison = s.poison := rfl
@[simp] theorem State.setTrk_draws (t : Nat) (b : List Stereo) :
    (State.setTrk t b s).draws = s.draws := rfl
@[simp] theorem State.setTrk_sinkReads (t : Nat) (b : List Stereo) :
    (State.setTrk t b s).sinkReads = s.sinkReads := rfl

@[simp] theorem State.setTrks_cfg (b : List (List Stereo)) :
    (State.setTrks b s).cfg = s.cfg := rfl
@[simp] theorem State.setTrks_pc (b : List (List Stereo)) :
    (State.setTrks b s).pc = s.pc := rfl
@[simp] theorem State.setTrks_stream (b : List (List Stereo)) :
    (State.setTrks b s).stream = s.stream := rfl
@[simp] theorem State.setTrks_responses (b : List (List Stereo)) :
    (State.setTrks b s).responses = s.responses := rfl
@[simp] theorem State.setTrks_gen (b : List (List Stereo)) :
    (State.setTrks b s).gen = s.gen := rfl
@[simp] theorem State.setTrks_dly (b : List (List Stereo)) :
    (State.setTrks b s).dly = s.dly := rfl
@[simp] theorem State.setTrks_rvb (b : List (List Stereo)) :
    (State.setTrks b s).rvb = s.rvb := rfl
@[simp] theorem State.setTrks_fft (b : List (List Stereo)) :
    (State.setTrks b s).fft = s.fft := rfl
@[simp] theorem State.setTrks_line (b : List (List Stereo)) :
    (State.setTrks b s).line = s.line := rfl
@[simp] theorem State.setTrks_adsr (b : List (List Stereo)) :
    (State.setTrks b s).adsr = s.adsr := rfl
@[simp] theorem State.setTrks_trk (b : List (List Stereo)) :
    (State.setTrks b s).trk = b := rfl
@[simp] theorem State.setTrks_mem (b : List (List Stereo)) :
    (State.setTrks b s).mem = s.mem := rfl
@[simp] theorem State.setTrks_status (b : List (List Stereo)) :
    (State.setTrks b s).status = s.status := rfl
@[simp] theorem State.setTrks_poison (b : List (List Stereo)) :
    (State.setTrks b s).poison = s.poison := rfl
@[simp] theorem State.setTrks_draws (b : List (List Stereo)) :
    (State.setTrks b s).draws = s.draws := rfl
@[simp] theorem State.setTrks_sinkReads (b : List (List Stereo)) :
    (State.setTrks b s).sinkReads = s.sinkReads := rfl

@[simp] theorem State.setFrame_cfg (m : Memory) :
    (State.setFrame m s).cfg = s.cfg := rfl
@[simp] theorem State.setFrame_pc (m : Memory) :
    (State.setFrame m s).pc = s.pc := rfl
@[simp] theorem State.setFrame_stream (m : Memory) :
    (State.setFrame m s).stream = s.stream := rfl
@[simp] theorem State.setFrame_responses (m : Memory) :
    (State.setFrame m s).responses = s.responses := rfl
@[simp] theorem State.setFrame_gen (m : Memory) :
    (State.setFrame m s).gen = s.gen := rfl
@[simp] theorem State.setFrame_dly (m : Memory) :
    (State.setFrame m s).dly = s.dly := rfl
@[simp] theorem State.setFrame_rvb (m : Memory) :
    (State.setFrame m s).rvb = s.rvb := rfl
@[simp] theorem State.setFrame_fft (m : Memory) :
    (State.setFrame m s).fft = s.fft := rfl
@[simp] theorem State.setFrame_line (m : Memory) :
    (State.setFrame m s).line = s.line := rfl
@[simp] theorem State.setFrame_adsr (m : Memory) :
    (State.setFrame m s).adsr = s.adsr := rfl
@[simp] theorem State.setFrame_trk (m : Memory) :
    (State.setFrame m s).trk = s.trk := rfl
@[simp] theorem State.setFrame_mem (m : Memory) :
    (State.setFrame m s).mem = m := rfl
@[simp] theorem State.setFrame_status (m : Memory) :
    (State.setFrame m s).status = s.status := rfl
@[simp] theorem State.setFrame_poison (m : Memory) :
    (State.setFrame m s).poison = s.poison := rfl
@[simp] theorem State.setFrame_draws (m : Memory) :
    (State.setFrame m s).draws = s.draws := rfl
@[simp] theorem State.setFrame_sinkReads (m : Memory) :
    (State.setFrame m s).sinkReads = s.sinkReads.map (fun r => { r with raced := true }) := rfl

@[simp] theorem State.send_cfg (w : List Word) :
    (State.send w s).cfg = s.cfg := rfl
@[simp] theorem State.send_pc (w : List Word) :
    (State.send w s).pc = s.pc := rfl
@[simp] theorem State.send_stream (w : List Word) :
    (State.send w s).stream = s.stream ++ w := rfl
@[simp] theorem State.send_responses (w : List Word) :
    (State.send w s).responses = s.responses := rfl
@[simp] theorem State.send_gen (w : List Word) :
    (State.send w s).gen = s.gen := rfl
@[simp] theorem State.send_dly (w : List Word) :
    (State.send w s).dly = s.dly := rfl
@[simp] theorem State.send_rvb (w : List Word) :
    (State.send w s).rvb = s.rvb := rfl
@[simp] theorem State.send_fft (w : List Word) :
    (State.send w s).fft = s.fft := rfl
@[simp] theorem State.send_line (w : List Word) :
    (State.send w s).line = s.line := rfl
@[simp] theorem State.send_adsr (w : List Word) :
    (State.send w s).adsr = s.adsr := rfl
@[simp] theorem State.send_trk (w : List Word) :
    (State.send w s).trk = s.trk := rfl
@[simp] theorem State.send_mem (w : List Word) :
    (State.send w s).mem = s.mem := rfl
@[simp] theorem State.send_status (w : List Word) :
    (State.send w s).status = s.status := rfl
@[simp] theorem State.send_poison (w : List Word) :
    (State.send w s).poison = s.poison := rfl
@[simp] theorem State.send_draws (w : List Word) :
    (State.send w s).draws = s.draws := rfl
@[simp] theorem State.send_sinkReads (w : List Word) :
    (State.send w s).sinkReads = s.sinkReads := rfl

end Sys2Proof.Machine
end

