-- ==== Sys2Proof/Laws/Ops.lean ====
section
/-! SUPPORT. What the shared operations can answer: a response, a raised error, a violated precondition, a
segment's advance. -/

namespace Sys2Proof.Machine

variable {s t : State}

theorem reply_eq_next {c : RespCode} {d : List Word} :
    reply c d s = .next t ↔ t = s.respond c d := by
  unfold reply; constructor
  · intro h; injection h with h; exact h.symm
  · rintro rfl; rfl

theorem raise_eq_next {c : RespCode} {d : List Word} :
    raise c d s = .next t ↔ t = (s.orStatus (statusBit c)).respond c d := reply_eq_next

theorem raiseBadHandle_eq_next {n : Nat} :
    raiseBadHandle n s = .next t ↔
      t = (s.orStatus (statusBit .badHandle)).respond .badHandle (List.replicate n 0#32) := reply_eq_next

theorem raiseIllegal_eq_next {n : Nat} :
    raiseIllegal n s = .next t ↔
      t = (s.orStatus (statusBit .illegal)).respond .illegal (List.replicate n 0#32) := reply_eq_next

theorem raiseExhausted_eq_next :
    raiseExhausted s = .next t ↔
      t = (s.orStatus (statusBit .exhausted)).respond .exhausted [0xFFFFFFFF#32] := reply_eq_next

theorem replyPrecond_eq_next {d : List Word} :
    replyPrecond d s = .next t ↔ t = (s.respond .precond d).flagPrecond := by
  unfold replyPrecond; constructor
  · intro h; injection h with h; exact h.symm
  · rintro rfl; rfl

/-- The data words of a response are as many as the rule's. -/
theorem replyData_length (d : List Word) : (s.replyData d).length = d.length := by
  unfold State.replyData State.anyWords; split <;> simp

theorem replyData_specified (h : s.poison = false) (d : List Word) : s.replyData d = d := by
  simp [State.replyData, h]

theorem replyData_poisoned (h : s.poison = true) (d : List Word) :
    s.replyData d = s.anyWords d.length := by
  simp [State.replyData, h]

end Sys2Proof.Machine
end

