-- ==== Sys2Proof/Laws/PerInstr.lean ====
section
/-! SUPPORT. The family Framing: the words of a command, followed by any words, are taken off the stream as
that command and leave the words after it (30_encoding.md R80, R87). -/

namespace Sys2Proof.Laws.Framing

/-- The words of a command are framed as that command, whatever follows. -/
def Statement (i : Instr) : Prop :=
  ∀ rest : List Word, frame (encode i ++ rest) = .command i.w0 i.operands rest

/-- The `LEN` field of a packed command word. -/
theorem fieldLen_packW0 (len : BitVec 4) (imm : BitVec 12) (idx opc : BitVec 8) :
    fieldLen (packW0 len imm idx opc) = len := by
  unfold fieldLen packW0
  ext k hk
  simp only [BitVec.getElem_extractLsb', BitVec.getLsbD_append]
  rw [if_neg (by omega), if_neg (by omega), if_neg (by omega),
    show 28 + k - 8 - 8 - 12 = k by omega, BitVec.getLsbD_eq_getElem hk]

/-- A command whose operand words fit the `LEN` field is framed. -/
theorem statement_of_length {i : Instr} (h : i.operands.length < 16) : Statement i := by
  intro rest
  have hl : (fieldLen i.w0).toNat = i.operands.length := by
    unfold Instr.w0
    rw [fieldLen_packW0, BitVec.toNat_ofNat]
    exact Nat.mod_eq_of_lt h
  unfold frame encode
  rw [List.cons_append]
  simp [hl]

theorem genReg (type : BitVec 2) (freq : B32) :
    Statement (.genReg type freq) :=
  statement_of_length (by simp [Instr.operands])

theorem genRel (h : BitVec 8) :
    Statement (.genRel h) :=
  statement_of_length (by simp [Instr.operands])

theorem genAdv :
    Statement (.genAdv) :=
  statement_of_length (by simp [Instr.operands])

theorem genRd (h : BitVec 8) :
    Statement (.genRd h) :=
  statement_of_length (by simp [Instr.operands])

theorem dlyApply (i : BitVec 8) (sample delay feedback : B32) :
    Statement (.dlyApply i sample delay feedback) :=
  statement_of_length (by simp [Instr.operands])

theorem rvbCfg (i : BitVec 8) (wet decay room cutoff predelay : B32) :
    Statement (.rvbCfg i wet decay room cutoff predelay) :=
  statement_of_length (by simp [Instr.operands])

theorem rvbApply (i : BitVec 8) (sample : B32) :
    Statement (.rvbApply i sample) :=
  statement_of_length (by simp [Instr.operands])

theorem fftIn (i : BitVec 8) (sample : B32) :
    Statement (.fftIn i sample) :=
  statement_of_length (by simp [Instr.operands])

theorem fftOut (i : BitVec 8) :
    Statement (.fftOut i) :=
  statement_of_length (by simp [Instr.operands])

theorem fftShift (i : BitVec 8) (factor : B32) :
    Statement (.fftShift i factor) :=
  statement_of_length (by simp [Instr.operands])

theorem lineSet (j : BitVec 8) (len start stop : B32) :
    Statement (.lineSet j len start stop) :=
  statement_of_length (by simp [Instr.operands])

theorem lineRst (j : BitVec 8) :
    Statement (.lineRst j) :=
  statement_of_length (by simp [Instr.operands])

theorem lineAdv (j : BitVec 8) :
    Statement (.lineAdv j) :=
  statement_of_length (by simp [Instr.operands])

theorem adsrSet (e : BitVec 8) (seg : Segment) (len start stop : B32) :
    Statement (.adsrSet e seg len start stop) :=
  statement_of_length (by simp [Instr.operands])

theorem adsrRst (e : BitVec 8) :
    Statement (.adsrRst e) :=
  statement_of_length (by simp [Instr.operands])

theorem adsrAdv (e : BitVec 8) (trig : Bool) :
    Statement (.adsrAdv e trig) :=
  statement_of_length (by simp [Instr.operands])

theorem mix (a b t : B32) :
    Statement (.mix a b t) :=
  statement_of_length (by simp [Instr.operands])

theorem clamp (x lo hi : B32) :
    Statement (.clamp x lo hi) :=
  statement_of_length (by simp [Instr.operands])

theorem trkWr (t : BitVec 8) (k : BitVec 11) (ch : Channel) (value : B32) :
    Statement (.trkWr t k ch value) :=
  statement_of_length (by simp [Instr.operands])

theorem mixPeriod :
    Statement (.mixPeriod) :=
  statement_of_length (by simp [Instr.operands])

theorem outRd (k : BitVec 11) :
    Statement (.outRd k) :=
  statement_of_length (by simp [Instr.operands])

theorem csrRd (addr : BitVec 12) (i : BitVec 8) :
    Statement (.csrRd addr i) :=
  statement_of_length (by simp [Instr.operands])

theorem csrWr (addr : BitVec 12) (i : BitVec 8) (value : Word) :
    Statement (.csrWr addr i value) :=
  statement_of_length (by simp [Instr.operands])

end Sys2Proof.Laws.Framing
end

