-- ==== Sys2Proof/Laws/Units.lean ====
section
/-! SUPPORT. What the unit operations keep: the bounds of a delay line, a spectral processor, a line and an
ADSR unit (10_state.md R25, R27 to R29), a slot's kind, and the lengths of the transform datapath. -/

namespace Sys2Proof.Machine

/-! ## Lists -/

/-- A property of all entries survives a `set` to an entry that has it. -/
theorem forall_mem_set {α : Type} {P : α → Prop} {l : List α} {k : Nat} {x : α}
    (h : ∀ y ∈ l, P y) (hx : P x) : ∀ y ∈ l.set k x, P y := fun _ hy =>
  (List.mem_or_eq_of_mem_set hy).elim (h _) (fun e => e ▸ hx)

/-- An entry after a `set` inside the list. -/
theorem getD_set {α : Type} {l : List α} {k : Nat} (hk : k < l.length) (x d : α) (p : Nat) :
    (l.set k x).getD p d = if p = k then x else l.getD p d := by
  rw [List.getD_eq_getElem?_getD, List.getElem?_set]
  by_cases h : p = k
  · subst h; simp [hk]
  · rw [if_neg (Ne.symm h), if_neg h, List.getD_eq_getElem?_getD]

/-- Folding updates that keep the length keeps the length. -/
theorem foldl_length {α β : Type} (f : List α → β → List α) (h : ∀ l b, (f l b).length = l.length)
    (bs : List β) (l : List α) : (bs.foldl f l).length = l.length := by
  induction bs generalizing l with
  | nil => rfl
  | cons b bs ih => rw [List.foldl_cons, ih, h]

/-! ## Generators -/

/-- An advance keeps a slot's kind and frequency. -/
theorem genStep_kind (c : Config) (g : GenSlot) : (genStep c g).kind = g.kind := by
  unfold genStep; split <;> rfl

theorem genStep_freq (c : Config) (g : GenSlot) : (genStep c g).freq = g.freq := by
  unfold genStep; split <;> rfl

/-- An advance leaves a Free slot as it was. -/
theorem genStep_free (c : Config) {g : GenSlot} (h : g.kind = .free) : genStep c g = g := by
  unfold genStep; rw [h]

/-- The slot GEN_REG takes is Free and inside the table. -/
theorem firstFree_some {gs : List GenSlot} {h : Nat} (e : firstFree gs = some h) :
    h < gs.length ∧ ∃ g, gs[h]? = some g ∧ g.kind = .free := by
  obtain ⟨hl, hk, -⟩ := List.findIdx?_eq_some_iff_getElem.mp e
  exact ⟨hl, gs[h], List.getElem?_eq_getElem hl, by simpa using hk⟩

/-- The kind GEN_REG stores is never Free. -/
theorem genKindOf_ne_free {t : BitVec 2} {k : GenKind} (h : genKindOf t = some k) : k ≠ .free := by
  unfold genKindOf at h
  split at h
  · injection h with h; subst h; decide
  · split at h
    · injection h with h; subst h; decide
    · cases h

/-- The slot registered with a bad frequency is not Free. -/
theorem anySlot_ne_free (s : State) : (anySlot s).kind ≠ .free := by
  unfold anySlot; split <;> exact GenKind.noConfusion

/-! ## Delay lines -/

/-- One sample through a delay line keeps its bounds. -/
theorem delayStep_fits {u : NumUnit} {d : Delay} {cap : Nat} (h : d.Fits cap) (off : Int) (x fb : B32) :
    (delayStep u d off cap x fb).1.Fits cap :=
  ⟨by simp [delayStep, h.bufLength], Nat.mod_lt _ (Nat.lt_of_le_of_lt (Nat.zero_le _) h.wpBound)⟩

/-- The free delay line after a violation keeps the bounds. -/
theorem anyDelay_fits {cap : Nat} (h : 1 ≤ cap) (s : State) : (anyDelay cap s).Fits cap :=
  ⟨by simp [anyDelay, State.anyWords], Nat.mod_lt _ h⟩

/-! ## Lines and ADSR units -/

/-- Setting a segment fills its counter, which is within its bound. -/
theorem lineSetTo_fits (n : Word) (a b : B32) : (lineSetTo n a b).Fits := Nat.le_refl _

theorem lineRestart_fits (l : Line) : (lineRestart l).Fits := Nat.le_refl _

theorem anyLine_fits (a b : B32) (s : State) : (anyLine a b s).Fits := by
  simp only [anyLine, Line.Fits]
  have h := Nat.mod_lt (s.anyWord 1).toNat (show 0 < (s.anyWord 0).toNat + 1 by omega)
  have := (s.anyWord 0).isLt
  rw [BitVec.toNat_ofNat, Nat.mod_eq_of_lt (by omega)]
  omega

/-- An advance counts down by one and stops at 0; it keeps length, start and end. -/
theorem segAdv_line (u : NumUnit) (l : Line) :
    (segAdv u l).1 = { l with rem := BitVec.ofNat 32 (l.rem.toNat - 1) } := by
  have : (if l.rem = 0#32 then 0#32 else l.rem - 1#32) = BitVec.ofNat 32 (l.rem.toNat - 1) := by
    apply BitVec.eq_of_toNat_eq
    split <;> bv_omega
  unfold segAdv
  simp only [this]
  split <;> rfl

theorem segAdv_rem (u : NumUnit) (l : Line) : (segAdv u l).1.rem.toNat = l.rem.toNat - 1 := by
  have := l.rem.isLt
  rw [segAdv_line, BitVec.toNat_ofNat, Nat.mod_eq_of_lt (by omega)]

/-- The done bit is set exactly where the counter has reached 0. -/
theorem segAdv_done (u : NumUnit) (l : Line) : (segAdv u l).2.2 = true ↔ l.rem.toNat ≤ 1 := by
  have hb := l.rem.isLt
  unfold segAdv
  by_cases h : (if l.rem = 0#32 then 0#32 else l.rem - 1#32) = 0#32
  · simp only [h, if_true, true_iff]
    split at h
    · bv_omega
    · bv_omega
  · simp only [h, if_false, Bool.false_eq_true, false_iff]
    split at h
    · exact absurd rfl h
    · bv_omega

theorem segAdv_fits {u : NumUnit} {l : Line} (h : l.Fits) : (segAdv u l).1.Fits := by
  have := segAdv_rem u l
  have e : (segAdv u l).1.ntot = l.ntot := by rw [segAdv_line]
  unfold Line.Fits at h ⊢
  rw [e]; omega

theorem setSegment_fits {a : Adsr} {seg : Segment} {l : Line} (h : a.Fits) (hl : l.Fits) :
    (a.setSegment seg l).Fits := by
  cases seg
  · exact ⟨hl, h.2⟩
  · exact ⟨h.1, hl⟩

theorem adsrStep_fits {u : NumUnit} {a : Adsr} (h : a.Fits) (trig : Bool) :
    (adsrStep u a trig).1.Fits := by
  have hr : (adsrRelease u a).1.Fits := ⟨h.1, segAdv_fits h.2⟩
  unfold adsrStep
  split
  · split
    · exact hr
    · exact ⟨segAdv_fits h.1, h.2⟩
  · split
    · exact hr
    · exact h
  · exact hr
  · exact h

/-! ## Spectral processors -/

theorem bitrevList_length (l : Nat) (a : List Cpx) : (bitrevList l a).length = l := by
  unfold bitrevList
  rw [foldl_length _ (fun _ _ => List.length_set), List.length_replicate]

theorem butterfly_length (u : NumUnit) (w : Cpx) (h p : Nat) (a : List Cpx) :
    (butterfly u w h p a).length = a.length := by
  simp [butterfly]

/-- A butterfly writes its sum at `p` and its difference at `p + h`, and leaves every other entry. -/
theorem butterfly_getD (u : NumUnit) (w : Cpx) {h p : Nat} {a : List Cpx} (hp : p + h < a.length) (q : Nat) :
    (butterfly u w h p a).getD q Cpx.zero =
      if q = p + h then csub u (a.getD p Cpx.zero) (cmul u w (a.getD (p + h) Cpx.zero))
      else if q = p then cadd u (a.getD p Cpx.zero) (cmul u w (a.getD (p + h) Cpx.zero))
      else a.getD q Cpx.zero := by
  unfold butterfly
  simp only
  rw [getD_set (by rw [List.length_set]; exact hp), getD_set (by omega)]

theorem fftStage_length (u : NumUnit) (tw : Nat → Cpx) (l st : Nat) (a : List Cpx) :
    (fftStage u tw l st a).length = a.length := by
  unfold fftStage
  exact foldl_length _ (fun _ _ => foldl_length _ (fun _ _ => butterfly_length ..) _ _) _ _

theorem xfft_length (u : NumUnit) (tw : Nat → Cpx) (l : Nat) (a : List Cpx) :
    (xfft u tw l a).length = l := by
  unfold xfft
  rw [foldl_length _ (fun _ _ => fftStage_length ..), bitrevList_length]

theorem spectralIn_fits {c : Config} {f : Spectral} (h : f.Fits c.fftN) (x : B32) :
    (spectralIn c f x).Fits c.fftN := by
  obtain ⟨h1, h2, h3, h4, h5, h6, h7, h8⟩ := h
  unfold spectralIn
  simp only
  split
  · constructor <;> simp only [fftForward, xfft_length, List.length_set, h1, h5, h6]
    · exact Nat.lt_of_le_of_lt (Nat.zero_le _) h7
    · exact h8
  · constructor <;> simp only [List.length_set, h1, h2, h3, h4, h5, h6]
    · omega
    · exact h8

theorem spectralTake_fits {c : Config} {f : Spectral} (h : f.Fits c.fftN) :
    (spectralTake c f).Fits c.fftN := by
  unfold spectralTake
  split
  · obtain ⟨h1, h2, h3, h4, h5, h6, h7, h8⟩ := h
    constructor <;> simp [*]
  · exact h

theorem spectralOut_fits {c : Config} {f : Spectral} (h : f.Fits c.fftN) :
    (spectralOut c f).1.Fits c.fftN := by
  have hg := spectralTake_fits h
  unfold spectralOut
  simp only
  split
  · obtain ⟨h1, h2, h3, h4, h5, h6, h7, h8⟩ := hg
    exact ⟨h1, h2, h3, h4, h5, h6, h7, by assumption⟩
  · exact hg

/-- Replacing the persistent spectrum by one of the same length keeps the bounds. -/
theorem pers_fits {f : Spectral} {n : Nat} (h : f.Fits n) {p : List Cpx} (hp : p.length = 2 * n) :
    { f with pers := p }.Fits n := by
  obtain ⟨h1, h2, h3, h4, h5, h6, h7, h8⟩ := h
  constructor <;> simp [*]

theorem shiftedSpectrum_length (c : Config) (p : List Cpx) (r : B32) :
    (shiftedSpectrum c p r).length = 2 * c.fftN := by
  simp [shiftedSpectrum]

theorem anySpectrum_length (l : Nat) (s : State) : (anySpectrum l s).length = l := by
  simp [anySpectrum]

/-! ## Mixer -/

theorem mixFrame_length (c : Config) (trk : List (List Stereo)) :
    (mixFrame c trk).length = 2 * c.frameLen := by
  simp [mixFrame]

theorem writtenFrame_length (s : State) : (writtenFrame s).length = 2 * s.cfg.frameLen := by
  simp [writtenFrame, mixFrame_length]

/-- The frame MIX_PERIOD writes is canonical and inside the buffer. -/
theorem writtenFrame_memory (s : State) :
    (Memory.fromBytes 0 ((writtenFrame s).flatMap sampleBytes)).wf ∧
    ∀ c ∈ Memory.fromBytes 0 ((writtenFrame s).flatMap sampleBytes), c.1 < 4 * s.cfg.frameLen := by
  refine ⟨Memory.fromBytes_wf _ _, fun c hc => ?_⟩
  have := (Memory.fromBytes_addr hc).2.1
  rw [sampleBytes_flatMap_length, writtenFrame_length] at this
  omega

end Sys2Proof.Machine
end

