-- ==== Sys2Proof/Tests/Slice0.lean ====
section
/-! SUPPORT. Tests: ill-formed commands, words written out from 30_encoding.md, single steps with results from
95_test_vectors.md or worked by hand from the rules, and for each statement with hypotheses a witness. -/

namespace Sys2Proof.Tests

set_option Elab.async false

open Sys2Proof Sys2Proof.Machine

/-! ## Helpers -/

/-- The state an outcome goes on in. -/
def after : Outcome → Option State
  | .next t => some t
  | .fault _ => none
  | .refused _ => none

/-- The response an outcome appended last. -/
def answer (o : Outcome) : Option Response := (after o).bind fun t => t.responses.getLast?

/-- The reset state with words at the command port. -/
def port (ws : List Word) : State := State.reset.send ws

/-- The reset state with one generator slot replaced. -/
def withGen (h : Nat) (g : GenSlot) : State := State.reset.setGen h g

/-- A phasor slot at 2.0 Hz with this phase. -/
def phasorAt (ph : B32) : GenSlot := ⟨.phasor, 0x40000000#32, ph, 0#32⟩

/-- The reset state with all four slots live. -/
def fullTable : State := State.reset.setGens (List.replicate 4 (phasorAt 0#32))

/-- The reset state whose line has `NTOT = 4`, the ramp from 0.0 to 1.0 of E-1. -/
def withLine (rem : Word) : State := State.reset.setLine 0 ⟨4#32, rem, 0#32, 0x3F800000#32⟩

/-- The reset state with the ADSR unit of E-4 in a phase, its release counter full. -/
def withAdsr (rem : Word) (ph : AdsrPhase) : State :=
  State.reset.setAdsr 0
    ⟨⟨2#32, rem, 0#32, 0x3F800000#32⟩, ⟨3#32, 3#32, 0x3F800000#32, 0#32⟩, ph⟩

/-- The reset state with this delay line. -/
def withDelay (d : Delay) : State := State.reset.setDly 0 d

/-- The spectral processor before the last sample of F-3, waiting for 4.0. -/
def midFrame : Spectral :=
  { Spectral.reset 2 with
    cur := [0x40400000#32, 0x40000000#32], ovl := [0x3F800000#32, 0x40000000#32], sidx := 1 }

/-- The spectrum of F-3: `(6, 0), (-3, 1), (0, 0), (-3, -1)`. -/
def spectrumF3 : List Cpx :=
  [⟨0x40C00000#32, 0#32⟩, ⟨0xC0400000#32, 0x3F800000#32⟩, ⟨0#32, 0#32⟩, ⟨0xC0400000#32, 0xBF800000#32⟩]

/-- The processor of F-3 with its frame complete. -/
def fullFrame : Spectral := { Spectral.reset 2 with pers := spectrumF3, ready := true, stage := true }

/-- The reset state with this spectral processor. -/
def withFft (f : Spectral) : State := State.reset.setFft 0 f

/-- A track of four entries whose first has these channels. -/
def track (l r : B32) : List Stereo := ⟨l, r⟩ :: List.replicate 3 ⟨0#32, 0#32⟩

/-- The reset state with this first track. -/
def withTrack (l r : B32) : State := State.reset.setTrk 0 (track l r)

/-- The samples of M-1's first pair, 24576 and -16384, at sample 0. -/
def withFrame : State := State.reset.setFrame [(1, 0x60#8), (3, 0xC0#8)]

/-- The reset state after a violated precondition. -/
def poisoned : State := State.reset.flagPrecond

/-! ## Ill-formed commands (R85 step 4) -/

theorem test_wellFormed_type_0 : WellFormed (.genReg 0#2 0x3F800000#32) = false := by decide
theorem test_wellFormed_type_3 : WellFormed (.genReg 3#2 0x3F800000#32) = false := by decide
theorem test_wellFormed_read_unmapped : WellFormed (.csrRd 0x008#12 0#8) = false := by decide
theorem test_wellFormed_read_global_instance : WellFormed (.csrRd 0x001#12 1#8) = false := by decide
theorem test_wellFormed_write_readOnly : WellFormed (.csrWr 0x001#12 0#8 1#32) = false := by decide
theorem test_wellFormed_write_instance : WellFormed (.csrWr 0x000#12 1#8 1#32) = false := by decide
theorem test_wellFormed_accepts :
    WellFormed (.genReg 1#2 0#32) && WellFormed (.genReg 2#2 0#32) && WellFormed (.csrRd 0x001#12 0#8) &&
      WellFormed (.csrRd 0x488#12 9#8) && WellFormed (.csrWr 0x000#12 0#8 0#32) = true := by decide

/-! ## Words written out bit by bit from R80 to R84 -/

theorem test_decode_genReg :
    decodeWords [0b0001_000000000010_00000000_00000001#32, 0x40000000#32] =
      some (.genReg 2#2 0x40000000#32) := by decide
theorem test_decode_genRel :
    decodeWords [0b0000_000000000000_00000001_00000010#32] = some (.genRel 1#8) := by decide
theorem test_decode_genAdv : decodeWords [0b0000_000000000000_00000000_00000011#32] = some .genAdv := by
  decide
theorem test_decode_genRd :
    decodeWords [0b0000_000000000000_11111111_00000100#32] = some (.genRd 0xFF#8) := by decide
theorem test_decode_dlyApply :
    decodeWords [0b0011_000000000000_00000010_00010000#32, 1#32, 2#32, 3#32] =
      some (.dlyApply 2#8 1#32 2#32 3#32) := by decide
theorem test_decode_rvbCfg :
    decodeWords [0b0101_000000000000_00000001_00100000#32, 1#32, 2#32, 3#32, 4#32, 5#32] =
      some (.rvbCfg 1#8 1#32 2#32 3#32 4#32 5#32) := by decide
theorem test_decode_rvbApply :
    decodeWords [0b0001_000000000000_00000011_00100001#32, 7#32] = some (.rvbApply 3#8 7#32) := by decide
theorem test_decode_fftIn :
    decodeWords [0b0001_000000000000_00000100_00110000#32, 7#32] = some (.fftIn 4#8 7#32) := by decide
theorem test_decode_fftOut :
    decodeWords [0b0000_000000000000_00000101_00110001#32] = some (.fftOut 5#8) := by decide
theorem test_decode_fftShift :
    decodeWords [0b0001_000000000000_00000110_00110010#32, 7#32] = some (.fftShift 6#8 7#32) := by decide
theorem test_decode_lineSet :
    decodeWords [0b0011_000000000000_00000111_01000000#32, 1#32, 2#32, 3#32] =
      some (.lineSet 7#8 1#32 2#32 3#32) := by decide
theorem test_decode_lineRst :
    decodeWords [0b0000_000000000000_00001000_01000001#32] = some (.lineRst 8#8) := by decide
theorem test_decode_lineAdv :
    decodeWords [0b0000_000000000000_00001001_01000010#32] = some (.lineAdv 9#8) := by decide
theorem test_decode_adsrSet :
    decodeWords [0b0011_000000000001_00001010_01001000#32, 1#32, 2#32, 3#32] =
      some (.adsrSet 10#8 .release 1#32 2#32 3#32) := by decide
theorem test_decode_adsrRst :
    decodeWords [0b0000_000000000000_00001011_01001001#32] = some (.adsrRst 11#8) := by decide
theorem test_decode_adsrAdv :
    decodeWords [0b0000_000000000000_00001100_01001010#32] = some (.adsrAdv 12#8 false) := by decide
theorem test_decode_mix :
    decodeWords [0b0011_000000000000_00000000_01010000#32, 1#32, 2#32, 3#32] =
      some (.mix 1#32 2#32 3#32) := by decide
theorem test_decode_clamp :
    decodeWords [0b0011_000000000000_00000000_01010001#32, 1#32, 2#32, 3#32] =
      some (.clamp 1#32 2#32 3#32) := by decide
theorem test_decode_trkWr :
    decodeWords [0b0001_1_10000000001_00001101_01100000#32, 7#32] =
      some (.trkWr 13#8 0x401#11 .right 7#32) := by decide
theorem test_decode_mixPeriod :
    decodeWords [0b0000_000000000000_00000000_01100001#32] = some .mixPeriod := by decide
theorem test_decode_outRd :
    decodeWords [0b0000_0_11111111111_00000000_01100010#32] = some (.outRd 0x7FF#11) := by decide
theorem test_decode_csrRd :
    decodeWords [0b0000_010010000001_00001110_01110000#32] = some (.csrRd 0x481#12 14#8) := by decide
theorem test_decode_csrWr :
    decodeWords [0b0001_000000000000_00000000_01110001#32, 0x1F#32] =
      some (.csrWr 0x000#12 0#8 0x1F#32) := by decide

/-- 3.8: an unknown opcode, a wrong `LEN`, a nonzero `IDX`, and a reserved `IMM` bit. -/
theorem test_decode_rejects :
    decode 0x00000005#32 [] = .error .unknownOpcode ∧ decode 0x000000FF#32 [] = .error .unknownOpcode ∧
    decode 0x10000003#32 [0xDEADBEEF#32] = .error .wrongLength ∧
    decode 0x10000102#32 [0#32] = .error .wrongLength ∧
    decode 0x00000103#32 [] = .error .reservedField ∧
    decode 0x10050001#32 [0x3F800000#32] = .error .reservedField ∧
    decode 0x0002004A#32 [] = .error .reservedField ∧
    decode 0x08000062#32 [] = .error .reservedField := by decide

/-- R87: an unknown opcode with `LEN = 2` takes three words. -/
theorem test_step_unknown_takes_its_operands :
    (after (step (port [0x20000005#32, 1#32, 2#32, 0x00000003#32]))).map (fun t => (t.pc, t.stream)) =
      some (1, [0x00000003#32]) := by decide +kernel

/-! ## Single commands -/

/-- G-T1: `GEN_REG phasor` takes the lowest Free slot. -/
theorem test_genReg_lowest :
    answer (exec (.genReg 2#2 0x40000000#32) (withGen 0 (phasorAt 0#32))) = some ⟨.ok, [1#32]⟩ := by
  decide +kernel

/-- G-T2: 8.0 Hz at `SR = 8` breaks the precondition, the value below it does not, nor does -0.0. -/
theorem test_genReg_bounds :
    (answer (exec (.genReg 1#2 0x41000000#32) State.reset)).map Response.code = some .precond ∧
    (answer (exec (.genReg 1#2 0x40FFFFFF#32) State.reset)).map Response.code = some .ok ∧
    (answer (exec (.genReg 1#2 0x80000000#32) State.reset)).map Response.code = some .ok := by
  decide +kernel

/-- G-T2, R113, U3: 8.0 Hz at `SR = 8` is answered with the handle, and the slot is registered. -/
theorem test_genReg_bad_frequency : ∃ t, exec (.genReg 1#2 0x41000000#32) State.reset = .next t ∧
    t.responses = [⟨.precond, [0#32]⟩] ∧ ∃ g, t.gen[0]? = some g ∧ g.kind ≠ .free :=
  ⟨((State.reset.setGen 0 (anySlot State.reset)).skipDraws 4 |>.respond .precond [0#32]).flagPrecond,
    by
      have h : freqOk State.reset.cfg 0x41000000#32 = false := by decide +kernel
      have hf : firstFree State.reset.gen = some 0 := by decide
      simp only [exec, execGenReg, genKindOf, hf, h]
      rfl,
    rfl, _, rfl, anySlot_ne_free _⟩

theorem test_genRel_frees :
    (after (exec (.genRel 1#8) (withGen 1 (phasorAt 0x3F000000#32)))).map (fun t => t.gen) =
      some State.reset.gen := by decide +kernel
theorem test_genRel_free_slot : answer (exec (.genRel 1#8) State.reset) = some ⟨.badHandle, []⟩ := by
  decide +kernel

/-- G-P2: at phase 0.75 a 2.0 Hz phasor reaches 1.0, which is kept. -/
theorem test_genAdv_phasor_keeps_one :
    (after (exec .genAdv (withGen 0 (phasorAt 0x3F400000#32)))).bind (fun t => t.gen.head?) =
      some ⟨.phasor, 0x40000000#32, 0x3F800000#32, 0x3F400000#32⟩ := by decide +kernel

/-- G-S1, row 9: the sine of the phase just below 2π, which then wraps. -/
theorem test_genAdv_sine_wraps :
    (after (exec .genAdv (withGen 0 ⟨.sine, 0x3F800000#32, 0x40C90FDA#32, 0#32⟩))).bind
      (fun t => t.gen.head?) =
      some ⟨.sine, 0x3F800000#32, 0x3F490FD0#32, 0xB4A22169#32⟩ := by decide +kernel

theorem test_genRd_output :
    answer (exec (.genRd 3#8) (withGen 3 ⟨.sine, 0#32, 0#32, 0xB3BBBD2E#32⟩)) =
      some ⟨.ok, [0xB3BBBD2E#32]⟩ := by decide +kernel
/-- G-T1: handle 4 is out of range. -/
theorem test_genRd_out_of_range : answer (exec (.genRd 4#8) State.reset) = some ⟨.badHandle, [0#32]⟩ := by
  decide +kernel

/-- D-4, third call: `D = 1`, feedback 0.5: reads 1.0, writes 0.5. -/
theorem test_dlyApply_feedback :
    (after (exec (.dlyApply 0#8 0#32 0x3E000000#32 0x3F000000#32)
      (withDelay ⟨[0x3F800000#32, 0#32, 0#32, 0#32], 1⟩))).map
        (fun t => (t.dly, t.responses.getLast?)) =
      some ([⟨[0x3F800000#32, 0x3F000000#32, 0#32, 0#32], 2⟩], some ⟨.ok, [0x3F800000#32]⟩) := by
  decide +kernel

/-- D-3: `D = 0` reads the entry it is about to overwrite, and the write head wraps. -/
theorem test_dlyApply_zero_offset :
    (after (exec (.dlyApply 0#8 0x3F800000#32 0#32 0#32)
      (withDelay ⟨[0#32, 0#32, 0#32, 0x40000000#32], 3⟩))).map
        (fun t => (t.dly, t.responses.getLast?)) =
      some ([⟨[0#32, 0#32, 0#32, 0x3F800000#32], 0⟩], some ⟨.ok, [0x40000000#32]⟩) := by decide +kernel

theorem test_rvbCfg_shadow_only :
    (after (exec (.rvbCfg 0#8 0x40000000#32 1#32 2#32 3#32 4#32) State.reset)).bind
      (fun t => t.rvb.head?.map fun r => (r.shadow, r.active, r.ridx)) =
      some (⟨0x40000000#32, 1#32, 2#32, 3#32, 4#32⟩, rvbParamsReset, 0) := by decide +kernel

/-- R-2's fixture: every input sample scaled by `WET`. -/
def wetKernel : RvbKernel := fun p k x => (x.map fun v => ieeeMul v p.wet, k)

/-- R-2: the 32nd sample runs the kernel with the shadow parameters: 32.0 times 2.0, and `RIDX` is 0. -/
theorem test_rvbApply_chunk_end :
    (let r := (reverbStep wetKernel
        { Reverb.reset [] with ridx := 31, shadow := ⟨0x40000000#32, 0#32, 0#32, 0#32, 0#32⟩ }
        0x42000000#32).1
     (r.ridx, r.active.wet, r.out[31], r.out[0])) = (0, 0x40000000#32, 0x42800000#32, 0#32) := by
  decide +kernel

/-- R-1: a sample inside a chunk replies the old output and only fills the input. -/
theorem test_rvbApply_inside_chunk :
    (after (exec (.rvbApply 0#8 0x3F800000#32) State.reset)).bind
      (fun t => t.rvb.head?.map fun r => (r.ridx, r.inp[0], t.responses.getLast?)) =
      some (1, 0x3F800000#32, some ⟨.ok, [0#32]⟩) := by decide +kernel

/-- F-3: the fourth sample completes the frame `[0, 1, 3, 2]`. -/
theorem test_fftIn_frame :
    (after (exec (.fftIn 0#8 0x40800000#32) (withFft midFrame))).bind
      (fun t => t.fft.head?.map fun f => (f.pers, f.work, f.sidx, t.responses.getLast?)) =
      some (spectrumF3, spectrumF3, 0, some ⟨.ok, [3#32]⟩) := by decide +kernel
/-- R184: the reversed indices of an 8-point transform, and its input reordered by them. -/
theorem test_bitrev :
    (List.range 8).map (bitrev 3) = [0, 4, 2, 6, 1, 5, 3, 7] ∧
    (bitrevList 8 ((List.range 8).map fun k => ⟨BitVec.ofNat 32 k, 0#32⟩)).map (fun z => z.re.toNat) =
      [0, 4, 2, 6, 1, 5, 3, 7] := by decide
/-- F-1: the first sample only fills the frame. -/
theorem test_fftIn_first : answer (exec (.fftIn 0#8 0x3F800000#32) State.reset) = some ⟨.ok, [0#32]⟩ := by
  decide +kernel

/-- F-3 without a shift: the first drain is 0.0, the next sample is 1.0. -/
theorem test_fftOut_takes :
    (after (exec (.fftOut 0#8) (withFft fullFrame))).bind
      (fun t => t.fft.head?.map fun f => (f.olaOut, f.oidx, f.ready, t.responses.getLast?)) =
      some ([0#32, 0x3F800000#32], 1, false, some ⟨.ok, [0#32]⟩) := by decide +kernel
/-- R186: nothing to drain after reset. -/
theorem test_fftOut_empty : answer (exec (.fftOut 0#8) State.reset) = some ⟨.ok, [0#32]⟩ := by
  decide +kernel

/-- F-3 with `r = 2.0`. -/
theorem test_fftShift_two :
    (after (exec (.fftShift 0#8 0x40000000#32) (withFft fullFrame))).bind
      (fun t => t.fft.head?.map fun f => f.pers) =
      some [⟨0x40C00000#32, 0#32⟩, ⟨0x40C00000#32, 0#32⟩, ⟨0xC0400000#32, 0x3F800000#32⟩,
        ⟨0x40C00000#32, 0x80000000#32⟩] := by decide +kernel
/-- F-3 with `r = 0.5`: the bins beyond the spectrum are zero. -/
theorem test_fftShift_half :
    (after (exec (.fftShift 0#8 0x3F000000#32) (withFft fullFrame))).bind
      (fun t => t.fft.head?.map fun f => f.pers) =
      some [⟨0x40C00000#32, 0#32⟩, ⟨0#32, 0#32⟩, ⟨0#32, 0#32⟩, ⟨0#32, 0x80000000#32⟩] := by
  decide +kernel

/-- E-1: 0.5 s is four samples. -/
theorem test_lineSet :
    (after (exec (.lineSet 0#8 0x3F000000#32 0#32 0x3F800000#32) State.reset)).map (fun t => t.line) =
      some [⟨4#32, 4#32, 0#32, 0x3F800000#32⟩] := by decide +kernel
/-- E-3: a negative length, and one of 2^32 samples or more. -/
theorem test_lineSet_precond :
    (answer (exec (.lineSet 0#8 0xBF800000#32 0#32 0#32) State.reset)).map Response.code = some .precond ∧
    (answer (exec (.lineSet 0#8 0x4E6E6B28#32 0#32 0#32) State.reset)).map Response.code =
      some .precond := by decide +kernel

theorem test_lineRst :
    (after (exec (.lineRst 0#8) (withLine 1#32))).map (fun t => t.line) =
      some [⟨4#32, 4#32, 0#32, 0x3F800000#32⟩] := by decide +kernel

/-- E-1: the first advance gives 0.25, the last 1.0 with done. -/
theorem test_lineAdv_values :
    answer (exec (.lineAdv 0#8) (withLine 4#32)) = some ⟨.ok, [0x3E800000#32, 0#32]⟩ ∧
    answer (exec (.lineAdv 0#8) (withLine 1#32)) = some ⟨.ok, [0x3F800000#32, 1#32]⟩ := by decide +kernel
/-- E-3: a line never set replies `(+0.0, 1)`. -/
theorem test_lineAdv_reset : answer (exec (.lineAdv 0#8) State.reset) = some ⟨.ok, [0#32, 1#32]⟩ := by
  decide +kernel

/-- E-4: the release segment of 0.375 s; `PH` and the attack stay. -/
theorem test_adsrSet_release :
    (after (exec (.adsrSet 0#8 .release 0x3EC00000#32 0x3F800000#32 0#32) State.reset)).bind
      (fun t => t.adsr.head?) =
      some ⟨Line.reset, ⟨3#32, 3#32, 0x3F800000#32, 0#32⟩, .attack⟩ := by decide +kernel

theorem test_adsrRst :
    (after (exec (.adsrRst 0#8) (withAdsr 0#32 .done))).bind
      (fun t => t.adsr.head?.map fun a => (a.ph, a.atk.rem, a.rel.rem)) =
      some (.attack, 2#32, 3#32) := by decide +kernel

/-- E-4, step 5: the trigger's step is the first of the release, `0x3F2AAAAA`. -/
theorem test_adsrAdv_trigger :
    answer (exec (.adsrAdv 0#8 true) (withAdsr 0#32 .sustain)) = some ⟨.ok, [0x3F2AAAAA#32, 0#32]⟩ := by
  decide +kernel
/-- E-4, step 2: the attack's last step replies its end, not done, and hands over to SUSTAIN. -/
theorem test_adsrAdv_attack_ends :
    (after (exec (.adsrAdv 0#8 false) (withAdsr 1#32 .attack))).bind
      (fun t => t.adsr.head?.map fun a => (a.ph, t.responses.getLast?)) =
      some (.sustain, some ⟨.ok, [0x3F800000#32, 0#32]⟩) := by decide +kernel

/-- E-8: `MIX 0.1, 0.2, 0.3`. -/
theorem test_mix_rounds :
    answer (exec (.mix 0x3DCCCCCD#32 0x3E4CCCCD#32 0x3E99999A#32) State.reset) =
      some ⟨.ok, [0x3E051EB8#32]⟩ := by decide +kernel
/-- E-8: `MIX 1.0, 2.0, -1.0` is `+0.0`. -/
theorem test_mix_zero :
    answer (exec (.mix 0x3F800000#32 0x40000000#32 0xBF800000#32) State.reset) =
      some ⟨.ok, [0#32]⟩ := by decide +kernel

/-- E-8: `CLAMP 2.0, 1.0, 0.0` and `CLAMP 0.5, 1.0, 0.0` with `lo > hi`. -/
theorem test_clamp_order :
    answer (exec (.clamp 0x40000000#32 0x3F800000#32 0#32) State.reset) = some ⟨.ok, [0#32]⟩ ∧
    answer (exec (.clamp 0x3F000000#32 0x3F800000#32 0#32) State.reset) =
      some ⟨.ok, [0x3F800000#32]⟩ := by decide +kernel
/-- E-8: a NaN and -0.0 pass through. -/
theorem test_clamp_passes :
    answer (exec (.clamp 0x7FC12345#32 0#32 0x3F800000#32) State.reset) = some ⟨.ok, [0x7FC12345#32]⟩ ∧
    answer (exec (.clamp 0x80000000#32 0#32 0x3F800000#32) State.reset) = some ⟨.ok, [0x80000000#32]⟩ := by
  decide +kernel

/-- M-4: a track entry is overwritten, the other channel kept. -/
theorem test_trkWr_overwrites :
    (after (exec (.trkWr 0#8 0#11 .left 0x3E800000#32) (withTrack 0x3F000000#32 0x40000000#32))).bind
      (fun t => t.trk.head?) = some (track 0x3E800000#32 0x40000000#32) := by decide +kernel
/-- M-3: the track and the sample index out of range. -/
theorem test_trkWr_bad :
    answer (exec (.trkWr 2#8 0#11 .left 0#32) State.reset) = some ⟨.badHandle, []⟩ ∧
    answer (exec (.trkWr 0#8 4#11 .left 0#32) State.reset) = some ⟨.badHandle, []⟩ := by decide +kernel

/-- M-2: -1.0 and `0x3F7FFF58` at sample 0; the tracks are zeroed. -/
theorem test_mixPeriod_quantizes :
    (after (exec .mixPeriod (withTrack 0xBF800000#32 0x3F7FFF58#32))).map
      (fun t => ((t.mem.sample 0 0).toInt, (t.mem.sample 0 1).toInt, t.trk == State.reset.trk,
        t.responses.getLast?)) =
      some (-32768, 32767, true, some ⟨.ok, []⟩) := by decide +kernel
/-- M-2: 1.0 is out of range; the other channel's value stands. -/
theorem test_mixPeriod_range :
    (answer (exec .mixPeriod (withTrack 0x3F800000#32 0#32))) = some ⟨.range, []⟩ ∧
    (after (exec .mixPeriod (withTrack 0x3F800000#32 0#32))).map (fun t => t.status) = some 0x10#32 := by
  decide +kernel

/-- M-1: `OUT_RD 0`. -/
theorem test_outRd_packs :
    answer (exec (.outRd 0#11) withFrame) = some ⟨.ok, [0xC0006000#32]⟩ := by decide +kernel
theorem test_outRd_bad : answer (exec (.outRd 4#11) State.reset) = some ⟨.badHandle, [0#32]⟩ := by
  decide +kernel

/-- 3.7: `UNITS`, `FFT_OIDX[0]` and `DLY_CAP[0]` from reset. -/
theorem test_csrRd_values :
    answer (exec (.csrRd 0x005#12 0#8) State.reset) = some ⟨.ok, [0x00011111#32]⟩ ∧
    answer (exec (.csrRd 0x302#12 0#8) State.reset) = some ⟨.ok, [2#32]⟩ ∧
    answer (exec (.csrRd 0x100#12 0#8) State.reset) = some ⟨.ok, [4#32]⟩ := by decide +kernel
/-- 3.7: unmapped, global with an instance, and an instance out of range. -/
theorem test_csrRd_errors :
    answer (exec (.csrRd 0x008#12 0#8) State.reset) = some ⟨.illegal, [0#32]⟩ ∧
    answer (exec (.csrRd 0x001#12 1#8) State.reset) = some ⟨.illegal, [0#32]⟩ ∧
    answer (exec (.csrRd 0x101#12 1#8) State.reset) = some ⟨.badHandle, [0#32]⟩ := by decide +kernel

/-- R41: writing 1 to bit 2 clears BADH and leaves ILL. -/
theorem test_csrWr_clears :
    (after (exec (.csrWr 0x000#12 0#8 0xFFFFFFE4#32) (State.reset.orStatus 0x05#32))).map
      (fun t => t.status) = some 0x01#32 := by decide +kernel
/-- 3.7: `SRATE` is not writable. -/
theorem test_csrWr_readOnly :
    answer (exec (.csrWr 0x001#12 0#8 1#32) State.reset) = some ⟨.illegal, []⟩ := by decide +kernel

/-- R63, M-1: the sink's bytes 0 to 3. -/
theorem test_sink_bytes :
    (match withFrame.sinkRead 0 4 with | .ok bs => bs | .error _ => []) =
      [0x00#8, 0x60#8, 0x00#8, 0xC0#8] := by decide +kernel
/-- R61: the last byte is 15, and a read of two bytes from it is outside. -/
theorem test_sink_outside :
    (match State.reset.sinkRead 15 2 with | .ok _ => none | .error f => some f) =
      some .sinkOutsideBuffer := by decide +kernel
/-- R63: three bytes is no size of the port. -/
theorem test_sink_size :
    (match State.reset.sinkRead 0 3 with | .ok _ => none | .error f => some f) =
      some .sinkBadSize := by decide +kernel

/-! ## Witnesses: concrete states and operands that meet each statement's hypotheses -/

/-- The invariant holds at the reset state with a command at the port. -/
theorem witness_inv (ws : List Word) : (port ws).Inv where
  cfg := by show cfgValid Config.cfgA = true; decide
  genLength := rfl
  genFree := fun g hg _ => (List.mem_replicate.mp hg).2
  dlyLength := rfl
  dlyFits := by
    intro i d cap hd hc
    have hi : i = 0 := by
      rcases i with _ | i
      · rfl
      · cases hc
    subst hi
    injection hd with hd
    injection hc with hc
    subst hd hc
    exact ⟨rfl, by decide⟩
  rvbLength := rfl
  fftLength := rfl
  fftFits := fun f hf => by
    obtain rfl := (List.mem_replicate.mp hf).2
    exact ⟨rfl, rfl, rfl, rfl, rfl, rfl, (by decide : 0 < 2), Nat.le_refl 2⟩
  lineLength := rfl
  lineFits := fun l hl => by
    obtain rfl := (List.mem_replicate.mp hl).2
    exact Nat.le_refl _
  adsrLength := rfl
  adsrFits := fun a ha => by
    obtain rfl := (List.mem_replicate.mp ha).2
    exact ⟨Nat.le_refl _, Nat.le_refl _⟩
  trkLength := rfl
  trkFits := fun b hb => by
    obtain rfl := (List.mem_replicate.mp hb).2
    rfl
  memWf := Memory.wf_nil
  memInside := fun c hc => by cases hc
  statusReserved := (by decide : 0#32 &&& ~~~statusMask = 0#32)

/-- The step of the invariant, of the pc, of the response, of the parameters and of POISON. -/
theorem witness_step : ∃ t, step (port [0x00000003#32]) = .next t ∧
    (port [0x00000003#32]).stream = 0x00000003#32 :: [] := ⟨_, rfl, rfl⟩

theorem witness_reset_valid : cfgValid Config.cfgA = true := by decide

theorem witness_decode_ok : decode 0x18050160#32 [0x3F000000#32] = .ok (.trkWr 1#8 5#11 .right 0x3F000000#32) := by
  decide

/-- Unassigned opcodes at both ends of the map, and next to assigned ones. -/
theorem witness_unassigned :
    opRow (fieldOpc 0x00000000#32) = none ∧ opRow (fieldOpc 0x00000005#32) = none ∧
    opRow (fieldOpc 0xF00000FF#32) = none := by decide

/-- Each of the three reasons, alone. -/
theorem witness_wrongLength_or_reserved :
    (opRow (fieldOpc 0x10000003#32) = some ⟨0x03#8, 0#4, true, 0#12, 0⟩ ∧ fieldLen 0x10000003#32 ≠ 0#4) ∧
    (opRow (fieldOpc 0x00000103#32) = some ⟨0x03#8, 0#4, true, 0#12, 0⟩ ∧ fieldIdx 0x00000103#32 ≠ 0#8) ∧
    (opRow (fieldOpc 0x0002004A#32) = some ⟨0x4A#8, 0#4, false, 1#12, 2⟩ ∧
      fieldImm 0x0002004A#32 &&& ~~~1#12 ≠ 0#12) := by decide

theorem witness_step_runs :
    cfgValid (port [0x10000021#32, 7#32, 3#32]).cfg = true ∧
    (port [0x10000021#32, 7#32, 3#32]).stream = 0x10000021#32 :: ([7#32] ++ [3#32]) ∧
    [7#32].length = (fieldLen 0x10000021#32).toNat ∧
    decode 0x10000021#32 [7#32] = .ok (.rvbApply 0#8 7#32) := by decide

theorem witness_step_illegal :
    cfgValid (port [0x10000003#32, 7#32]).cfg = true ∧
    (port [0x10000003#32, 7#32]).stream = 0x10000003#32 :: ([7#32] ++ []) ∧
    [7#32].length = (fieldLen 0x10000003#32).toNat ∧
    decode 0x10000003#32 [7#32] = .error .wrongLength := by decide

/-- No word, and one operand word short of three. -/
theorem witness_incomplete :
    (cfgValid State.reset.cfg = true ∧ State.reset.stream = []) ∧
    (port [0x30000010#32, 1#32, 2#32]).stream = 0x30000010#32 :: [1#32, 2#32] ∧
    [1#32, 2#32].length < (fieldLen 0x30000010#32).toNat := by decide

/-- A parameter at each side of a bound. -/
theorem witness_badConfiguration :
    cfgValid { Config.cfgA with genCap := 256 } = false ∧ cfgValid { Config.cfgA with genCap := 255 } = true ∧
    cfgValid { Config.cfgA with dlyCap := [0] } = false ∧
    cfgValid { Config.cfgA with sr := 0 } = false ∧ cfgValid { Config.cfgA with sr := 2 ^ 32 } = true ∧
    cfgValid { Config.cfgA with fftN := 3, fftWindow := List.replicate 6 0#32 } = false := by decide

/-- A command other than an accepted CSR_WR. -/
theorem witness_status : ∃ t, exec .genAdv State.reset = .next t ∧
    ∀ v, Instr.genAdv ≠ .csrWr 0x000#12 0#8 v := ⟨_, rfl, fun _ => Instr.noConfusion⟩

/-- A CSR_WR clears STATUS bit 0, and another one bit 4. -/
theorem witness_sticky :
    (∃ t, step { port [0x10000071#32, 0x01#32] with status := 0x1F#32 } = .next t ∧
      (0x1F#32).getLsbD 0 = true ∧ t.status.getLsbD 0 = false) ∧
    (∃ t, step { port [0x10000071#32, 0x10#32] with status := 0x1F#32 } = .next t ∧
      (0x1F#32).getLsbD 4 = true ∧ t.status.getLsbD 4 = false) :=
  ⟨⟨_, rfl, by decide, by decide⟩, ⟨_, rfl, by decide, by decide⟩⟩

/-- Each of the three errors. -/
theorem witness_errors :
    (answer (exec (.genReg 1#2 0#32) fullTable)).map Response.code = some .exhausted ∧
    (answer (exec (.genRel 0#8) State.reset)).map Response.code = some .badHandle ∧
    (answer (exec (.genReg 0#2 0#32) State.reset)).map Response.code = some .illegal := by decide +kernel

theorem witness_poison : State.reset.poison = false ∧ poisoned.poison = true := by decide

/-- The five commands without side effects. -/
theorem witness_reads :
    ((after (exec (.csrRd 0#12 0#8) State.reset)).isSome = true ∧ (Instr.csrRd 0#12 0#8).opc = 0x70#8) ∧
    ((after (exec (.genRd 0#8) State.reset)).isSome = true ∧ (Instr.genRd 0#8).opc = 0x04#8) ∧
    ((after (exec (.outRd 0#11) State.reset)).isSome = true ∧ (Instr.outRd 0#11).opc = 0x62#8) ∧
    ((after (exec (.mix 0#32 0#32 0#32) State.reset)).isSome = true ∧
      (Instr.mix 0#32 0#32 0#32).opc = 0x50#8) ∧
    ((after (exec (.clamp 0#32 0#32 0#32) State.reset)).isSome = true ∧
      (Instr.clamp 0#32 0#32 0#32).opc = 0x51#8) := by decide +kernel

/-- Addresses at both ends of a mapped range and next to them. -/
theorem witness_mapped :
    [0x007#12, 0x010#12, 0x205#12, 0x209#12, 0x20D#12, 0x300#12, 0x480#12, 0x488#12].all
      (fun a => (csrOf a).isSome) = true ∧
    [0x008#12, 0x00F#12, 0x102#12, 0x206#12, 0x208#12, 0x20E#12, 0x303#12, 0x404#12, 0x489#12, 0xFFF#12].all
      (fun a => (csrOf a).isNone) = true := by decide

/-- A well-formed command whose answer is not ILLEGAL; ill-formed ones stand above. -/
theorem witness_wellFormed : WellFormed (.csrRd 0x488#12 0#8) = true ∧
    (answer (exec (.csrRd 0x488#12 0#8) State.reset)).map Response.code = some .ok := by decide +kernel

/-- Every clause of the index check, at the first index out of range. -/
theorem witness_badHandle :
    State.reset.cfg.genCap ≤ (4#8).toNat ∧
    (State.reset.gen[(3#8).toNat]? = some GenSlot.free ∧ GenSlot.free.kind = .free) ∧
    State.reset.cfg.nDelay ≤ (1#8).toNat ∧ State.reset.cfg.nReverb ≤ (1#8).toNat ∧
    State.reset.cfg.nFft ≤ (1#8).toNat ∧ State.reset.cfg.nLine ≤ (1#8).toNat ∧
    State.reset.cfg.nAdsr ≤ (1#8).toNat ∧ State.reset.cfg.nTracks ≤ (2#8).toNat ∧
    State.reset.cfg.frameLen ≤ (4#11).toNat ∧
    (csrOf 0x012#12 = some .genPh ∧ Csr.genPh.unit = some .gen ∧
      csrCount State.reset.cfg .gen ≤ (4#8).toNat) ∧
    (csrOf 0x101#12 = some .dlyWp ∧ Csr.dlyWp.unit = some .dly ∧
      csrCount State.reset.cfg .dly ≤ (1#8).toNat) := by decide

/-- Slot 0 is live, slot 1 is the lowest Free one; a frequency on each side of the bound. -/
theorem witness_genReg :
    (withGen 0 (phasorAt 0#32)).gen[1]? = some GenSlot.free ∧ GenSlot.free.kind = .free ∧
    (∀ (j : Nat) (g : GenSlot), j < 1 → (withGen 0 (phasorAt 0#32)).gen[j]? = some g → g.kind ≠ .free) ∧
    (fle 0#32 0x40FFFFFF#32 = true ∧ flt 0x40FFFFFF#32 (toB32 State.reset.cfg.sr) = true) ∧
    flt 0x41000000#32 (toB32 State.reset.cfg.sr) = false := by
  refine ⟨by decide, rfl, fun j g hj hg => ?_, by decide +kernel, by decide +kernel⟩
  obtain rfl : j = 0 := by omega
  injection hg with hg
  subst hg
  decide

theorem witness_genReg_full : ∀ g ∈ fullTable.gen, g.kind ≠ .free := by decide

theorem witness_live :
    (3#8).toNat < (withGen 3 (phasorAt 0#32)).cfg.genCap ∧
    (withGen 3 (phasorAt 0#32)).gen[(3#8).toNat]? = some (phasorAt 0#32) ∧
    (phasorAt 0#32).kind ≠ .free := by decide

/-- A phasor at its upper bound, a sine at the phase just below 2π, and a command that leaves POISON clear. -/
theorem witness_oscillators :
    cfgValid State.reset.cfg = true ∧ State.reset.cfg.num = .ieee754 ∧
    (∀ g ∈ (State.reset.setGens [phasorAt 0x3F800000#32, ⟨.sine, 0x3F800000#32, 0x40C90FDA#32, 0#32⟩,
      GenSlot.free, GenSlot.free]).gen, g.InRange State.reset.cfg) ∧
    (after (exec .genAdv (State.reset.setGens [phasorAt 0x3F800000#32,
      ⟨.sine, 0x3F800000#32, 0x40C90FDA#32, 0#32⟩, GenSlot.free, GenSlot.free]))).map
      (fun t => t.poison) = some false := by
  refine ⟨by decide, rfl, fun g hg => ?_, by decide +kernel⟩
  simp only [State.setGens, List.mem_cons, List.not_mem_nil, or_false] at hg
  rcases hg with rfl | rfl | rfl | rfl
  · show freqOk _ _ = true ∧ _; decide +kernel
  · show freqOk _ _ = true ∧ _; decide +kernel
  · trivial
  · trivial

/-- A delay of `D = C = 4`, the largest in range, with feedbacks next to both bounds. -/
theorem witness_dlyApply :
    (0#8).toNat < State.reset.cfg.nDelay ∧
    State.reset.dly[(0#8).toNat]? = some ⟨[0#32, 0#32, 0#32, 0#32], 0⟩ ∧
    State.reset.cfg.dlyCap[(0#8).toNat]? = some 4 ∧
    0x40800000#32 = fmul State.reset.cfg.num 0x3F000000#32 (toB32 State.reset.cfg.sr) ∧
    isFinite 0x40800000#32 = true ∧ fle 0#32 0x40800000#32 = true ∧ truncInt 0x40800000#32 ≤ 4 ∧
    flt 0xBF800000#32 0xBF7FFFFF#32 = true ∧ flt 0x3F7FFFFF#32 0x3F800000#32 = true := by decide +kernel

/-- Each way to break a precondition: an infinite delay, a negative one, one beyond the capacity, and a
feedback at each bound (D-8 to D-11). -/
theorem witness_dlyApply_violation :
    isFinite (fmul State.reset.cfg.num 0x7F800000#32 (toB32 State.reset.cfg.sr)) = false ∧
    fle 0#32 (fmul State.reset.cfg.num 0xBE000000#32 (toB32 State.reset.cfg.sr)) = false ∧
    4 < truncInt (fmul State.reset.cfg.num 0x3F800000#32 (toB32 State.reset.cfg.sr)) ∧
    flt 0xBF800000#32 0xBF800000#32 = false ∧ flt 0x3F800000#32 0x3F800000#32 = false := by
  decide +kernel

/-- A delay line of four entries at both ends of the offset's range. -/
theorem witness_delayLine : (⟨[0#32, 0#32, 0#32, 0#32], 3⟩ : Delay).Fits 4 ∧ 1 ≤ 1 ∧ 4 ≤ 4 :=
  ⟨⟨rfl, by decide⟩, by decide, by decide⟩

theorem witness_rvb :
    (0#8).toNat < State.reset.cfg.nReverb ∧ State.reset.rvb[(0#8).toNat]? = some (Reverb.reset []) ∧
    (Reverb.reset []).ridx = 0 := by decide

theorem witness_fft :
    (0#8).toNat < (withFft midFrame).cfg.nFft ∧ (withFft midFrame).fft[(0#8).toNat]? = some midFrame ∧
    midFrame.sidx = (withFft midFrame).cfg.fftN - 1 ∧
    (withFft fullFrame).fft[(0#8).toNat]? = some fullFrame ∧ fullFrame.ready = true ∧
    flt 0#32 0x40000000#32 = true ∧ flt 0#32 0#32 = false ∧ flt 0#32 0x7FC00000#32 = false := by
  decide +kernel

/-- The spans of an 8-point transform at both ends. -/
theorem witness_fftStage :
    (1 ≤ 1 ∧ 2 * 1 ∣ 8) ∧ (1 ≤ 4 ∧ 2 * 4 ∣ 8) ∧ (List.replicate 8 Cpx.zero).length = 8 := by decide

/-- The stages of every transform, one after another. -/
theorem witness_stages (u : NumUnit) (tw : Nat → Cpx) (n : Nat) (a : List Cpx) :
    ∃ stages : Nat → List Cpx, stages 0 = bitrevList (2 ^ n) a ∧
      ∀ q, q < n → stages (q + 1) = fftStage u tw (2 ^ n) (2 * 2 ^ q) (stages q) :=
  ⟨Nat.rec (bitrevList (2 ^ n) a) fun q acc => fftStage u tw (2 ^ n) (2 * 2 ^ q) acc, rfl, fun _ _ => rfl⟩

/-- The operands, the products and the results of every butterfly exist for every stage. -/
theorem witness_butterflies (u : NumUnit) (tw : Nat → Cpx) (l h : Nat) (a : List Cpx) :
    ∃ x t v : Nat → Cpx,
      (∀ p, x p = a.getD p ⟨0#32, 0#32⟩) ∧
      (∀ p, t p =
        ⟨fsub u (fmul u (tw (p % (2 * h) * (l / (2 * h)))).re (x (p + h)).re)
            (fmul u (tw (p % (2 * h) * (l / (2 * h)))).im (x (p + h)).im),
          fadd u (fmul u (tw (p % (2 * h) * (l / (2 * h)))).re (x (p + h)).im)
            (fmul u (tw (p % (2 * h) * (l / (2 * h)))).im (x (p + h)).re)⟩) ∧
      ∀ p, v p =
        if p % (2 * h) < h then ⟨fadd u (x p).re (t p).re, fadd u (x p).im (t p).im⟩
        else ⟨fsub u (x (p - h)).re (t (p - h)).re, fsub u (x (p - h)).im (t (p - h)).im⟩ :=
  ⟨_, _, _, fun _ => rfl, fun _ => rfl, fun _ => rfl⟩

/-- A length with a sample count, and two without (E-3). -/
theorem witness_line :
    (0#8).toNat < (withLine 4#32).cfg.nLine ∧
    (withLine 4#32).line[(0#8).toNat]? = some ⟨4#32, 4#32, 0#32, 0x3F800000#32⟩ ∧
    segLen (withLine 4#32).cfg 0x3F000000#32 = some 4#32 ∧
    segLen (withLine 4#32).cfg 0xBF800000#32 = none ∧ segLen (withLine 4#32).cfg 0x4E6E6B28#32 = none := by
  decide +kernel

/-- The product at the first value that is too large, and at the one below it. -/
theorem witness_segLen :
    (0x4F800000#32 = fmul .ieee754 0x4E000000#32 (toB32 8) ∧ segLen Config.cfgA 0x4E000000#32 = none) ∧
    segLen Config.cfgA 0x4DFFFFFF#32 = some 0xFFFFFF00#32 := by decide +kernel

/-- Both clauses of a counter, where they meet. -/
theorem witness_lineAdv :
    (withLine 1#32).line[(0#8).toNat]? = some ⟨4#32, 1#32, 0#32, 0x3F800000#32⟩ ∧ (1#32).toNat ≤ 1 ∧
    (withLine 2#32).line[(0#8).toNat]? = some ⟨4#32, 2#32, 0#32, 0x3F800000#32⟩ ∧ 1 < (2#32).toNat := by
  decide

/-- The first, the last but one and the last step of a ramp of four samples. -/
theorem witness_ramp : 1 ≤ 1 ∧ 1 < (4#32).toNat ∧ 3 < (4#32).toNat ∧ (4#32).toNat ≤ 4 := by decide

/-- An ADSR unit in each phase. -/
theorem witness_adsr :
    (0#8).toNat < State.reset.cfg.nAdsr ∧
    (∀ ph ∈ [AdsrPhase.attack, .sustain, .release, .done],
      ((withAdsr 2#32 ph).adsr[(0#8).toNat]?).map Adsr.ph = some ph) ∧
    segLen State.reset.cfg 0x3EC00000#32 = some 3#32 ∧ segLen State.reset.cfg 0xBF800000#32 = none := by
  decide +kernel

/-- The `put` of ADSR_SET, for both segments. -/
theorem witness_adsrSet_put : ∃ put : Line → Adsr, ∀ l, put l = match Segment.release with
    | .attack => ⟨l, Adsr.reset.rel, Adsr.reset.ph⟩
    | .release => ⟨Adsr.reset.atk, l, Adsr.reset.ph⟩ := ⟨fun l => ⟨Adsr.reset.atk, l, Adsr.reset.ph⟩, fun _ => rfl⟩

/-- The last sample of the last track. -/
theorem witness_trkWr :
    (1#8).toNat < State.reset.cfg.nTracks ∧ State.reset.trk[(1#8).toNat]? = some (silentTrack 4) ∧
    (3#11).toNat < State.reset.cfg.frameLen ∧ (silentTrack 4)[(3#11).toNat]? = some ⟨0#32, 0#32⟩ := by
  decide

/-- A sample next to the quantizer's lower bound, and both bounds themselves (M-2). -/
theorem witness_quant :
    quant Config.cfgA 0xBF800080#32 = some 0x8000#16 ∧ quant Config.cfgA 0xBF800100#32 = none ∧
    quant Config.cfgA 0x3F800000#32 = none ∧ fmul .ieee754 0xBF800100#32 0x47000000#32 = 0xC7000100#32 := by
  decide +kernel

/-- The scaled sums and the range test of MIX_PERIOD exist for every state. -/
theorem witness_mixPeriod (s : State) : ∃ (p : Nat → Nat → B32) (out : Nat → Nat → Prop),
    (∀ k ch, p k ch = fmul s.cfg.num
      (s.trk.foldl (fun acc b => fadd s.cfg.num acc
        (if ch = 0 then (b.getD k ⟨0#32, 0#32⟩).left else (b.getD k ⟨0#32, 0#32⟩).right)) 0#32)
      (toB32 s.cfg.fs)) ∧
    (∀ k ch, out k ch ↔
      isNaN (p k ch) = true ∨ fle (p k ch) 0xC7000100#32 = true ∨ fle 0x47000000#32 (p k ch) = true) :=
  ⟨_, _, fun _ _ => rfl, fun _ _ => Iff.rfl⟩

theorem witness_outRd : (3#11).toNat < State.reset.cfg.frameLen := by decide

theorem witness_sink_frame : withFrame.poison = false ∧ 3 < withFrame.cfg.frameLen ∧ 1 < 2 := by decide

/-- A read that ends one byte outside, and one that ends at the last byte and is overlapped. -/
theorem witness_sink :
    ((2 = 1 ∨ 2 = 2 ∨ 2 = 4) ∧ 4 * State.reset.cfg.frameLen < 15 + 2) ∧
    State.reset.sinkReads = [] ∧ State.reset.poison = false ∧
    ∃ s t, State.reset.sinkBegin 14 2 = .ok s ∧ exec .mixPeriod s = .next t :=
  ⟨by decide, rfl, rfl, _, (after (exec .mixPeriod { State.reset with sinkReads := [⟨14, 2, false⟩] })).get
    (by decide +kernel), rfl, by rfl⟩

/-- `SR` at each side of what SRATE holds. -/
theorem witness_wideRegister :
    paramWord (2 ^ 32 - 1) = 0xFFFFFFFF#32 ∧ paramWord (2 ^ 32) = Config.wideRegister (2 ^ 32) :=
  ⟨by decide, rfl⟩

/-- The last instance of every unit whose registers are read. -/
theorem witness_csrRd :
    (3#8).toNat < State.reset.cfg.genCap ∧ State.reset.gen[(3#8).toNat]? = some GenSlot.free ∧
    (0#8).toNat < State.reset.cfg.nDelay ∧ State.reset.dly[(0#8).toNat]? = some (Delay.reset 4) ∧
    State.reset.cfg.dlyCap[(0#8).toNat]? = some 4 ∧
    State.reset.rvb[(0#8).toNat]? = some (Reverb.reset []) ∧
    State.reset.fft[(0#8).toNat]? = some (Spectral.reset 2) ∧
    State.reset.line[(0#8).toNat]? = some Line.reset ∧
    State.reset.adsr[(0#8).toNat]? = some Adsr.reset := by decide

/-- Each way a register write is ILLEGAL. -/
theorem witness_csrWr : (0x001#12 ≠ 0x000#12 ∨ 0#8 ≠ 0#8) ∧ (0x000#12 ≠ 0x000#12 ∨ 1#8 ≠ 0#8) ∧
    fieldOpc 0x00000071#32 = 0x71#8 ∧ fieldLen 0x00000071#32 ≠ 1#4 := by decide

/-- A command other than RVB_APPLY that reads a reverb block, whose private state is then not seen. -/
theorem witness_kernelState : (Instr.rvbCfg 0#8 0#32 0#32 0#32 0#32 0#32).opc ≠ 0x21#8 ∧
    ∃ t, exec (.rvbCfg 0#8 0#32 0#32 0#32 0#32 0#32) State.reset = .next t := ⟨by decide, _, rfl⟩

end Sys2Proof.Tests
end

section
/-! What a command can do to the state, said once: it works on its unit, then answers with one response. -/

namespace Sys2Proof.Machine

variable {s t w : State}

/-! ## The parameters' bounds -/

/-- A power of two is the power whose exponent is its binary logarithm. -/
theorem two_pow_log2_eq_iff (n : Nat) : 2 ^ Nat.log2 n = n ↔ ∃ k, n = 2 ^ k :=
  ⟨fun h => ⟨_, h.symm⟩, fun ⟨k, hk⟩ => by rw [hk, Nat.log2_two_pow]⟩

/-- The bounds of R5 as propositions. -/
theorem cfgValid_iff (c : Config) : cfgValid c = true ↔
    (1 ≤ c.sr ∧ (1 ≤ c.genCap ∧ c.genCap ≤ 255) ∧
     (1 ≤ c.nTracks ∧ c.nTracks ≤ 255) ∧ (1 ≤ c.frameLen ∧ c.frameLen ≤ 2048) ∧
     (1 ≤ c.dlyCap.length ∧ c.dlyCap.length ≤ 15) ∧ (∀ n ∈ c.dlyCap, 1 ≤ n ∧ n ≤ 2 ^ 24) ∧
     (1 ≤ c.nReverb ∧ c.nReverb ≤ 15) ∧ (1 ≤ c.nFft ∧ c.nFft ≤ 15) ∧
     (∃ k, c.fftN = 2 ^ k) ∧ c.fftN ≤ 2048 ∧ c.fftWindow.length = 2 * c.fftN ∧
     c.nLine ≤ 15 ∧ c.nAdsr ≤ 15) := by
  rw [← two_pow_log2_eq_iff]
  simp only [cfgValid, Bool.and_eq_true, decide_eq_true_eq, List.all_eq_true]
  constructor
  · rintro ⟨⟨⟨⟨⟨⟨⟨⟨⟨⟨⟨sr, gen⟩, trk⟩, frame⟩, dly⟩, cap⟩, rvb⟩, fft⟩, -, le, pow⟩, window⟩, line⟩, adsr⟩
    exact ⟨sr, gen, trk, frame, dly, cap, rvb, fft, pow, le, window, line, adsr⟩
  · rintro ⟨sr, gen, trk, frame, dly, cap, rvb, fft, pow, le, window, line, adsr⟩
    have pos : 1 ≤ c.fftN := pow ▸ Nat.one_le_two_pow
    exact ⟨⟨⟨⟨⟨⟨⟨⟨⟨⟨⟨sr, gen⟩, trk⟩, frame⟩, dly⟩, cap⟩, rvb⟩, fft⟩, pos, le, pow⟩, window⟩, line⟩, adsr⟩

/-- A delay line's capacity is at least one sample (R5). -/
theorem one_le_dlyCap {c : Config} (h : cfgValid c = true) {i n : Nat} (hn : c.dlyCap[i]? = some n) :
    1 ≤ n := by
  obtain ⟨-, -, -, -, -, cap, -⟩ := (cfgValid_iff c).mp h
  exact (cap n (List.mem_of_getElem? hn)).1

/-! ## A command's work on its unit -/

/-- What a command does before it answers: it touches only the units, the output frame buffer and the
model's own records, and keeps the invariant. -/
structure State.Work (s w : State) : Prop where
  frame : w = { s with
    gen := w.gen, dly := w.dly, rvb := w.rvb, fft := w.fft, line := w.line, adsr := w.adsr,
    trk := w.trk, mem := w.mem, draws := w.draws, sinkReads := w.sinkReads }
  inv : s.Inv → w.Inv

namespace State.Work

theorem cfg (h : s.Work w) : w.cfg = s.cfg := by rw [h.frame]

theorem refl (s : State) : s.Work s := ⟨rfl, id⟩

theorem trans (h : s.Work w) (h' : w.Work t) : s.Work t :=
  ⟨by rw [h'.frame, h.frame], h'.inv ∘ h.inv⟩

theorem skipDraws (s : State) (n : Nat) : s.Work (s.skipDraws n) := ⟨rfl, fun h => { h with }⟩

theorem setGen {g : GenSlot} (hg : g.kind ≠ .free ∨ g = GenSlot.free) (k : Nat) : s.Work (s.setGen k g) :=
  ⟨rfl, fun h => { h with
    genLength := by simp [h.genLength]
    genFree := forall_mem_set h.genFree fun hk => hg.resolve_left (not_not.mpr hk) }⟩

theorem genAdv (s : State) : s.Work (s.setGens (s.gen.map (genStep s.cfg))) :=
  ⟨rfl, fun h => { h with
    genLength := by simp [h.genLength]
    genFree := by
      intro g' hg' hk
      obtain ⟨g, hg, rfl⟩ := List.mem_map.mp hg'
      rw [genStep_kind] at hk
      rw [genStep_free _ hk, h.genFree g hg hk] }⟩

theorem setDly {k : Nat} {d : Delay}
    (hd : s.Inv → ∀ cap, s.cfg.dlyCap[k]? = some cap → d.Fits cap) : s.Work (s.setDly k d) :=
  ⟨rfl, fun h => { h with
    dlyLength := by simp [h.dlyLength]
    dlyFits := by
      intro i d' cap hi hcap
      rw [State.setDly_dly, List.getElem?_set] at hi
      split at hi
      · next hk =>
        subst hk
        split at hi
        · injection hi with hi
          exact hi ▸ hd h cap hcap
        · cases hi
      · exact h.dlyFits i d' cap hi hcap }⟩

theorem setRvb (s : State) (k : Nat) (r : Reverb) : s.Work (s.setRvb k r) :=
  ⟨rfl, fun h => { h with rvbLength := by simp [h.rvbLength] }⟩

theorem setFft {f : Spectral} (hf : s.Inv → f.Fits s.cfg.fftN) (k : Nat) : s.Work (s.setFft k f) :=
  ⟨rfl, fun h => { h with
    fftLength := by simp [h.fftLength]
    fftFits := forall_mem_set h.fftFits (hf h) }⟩

theorem setLine {l : Line} (hl : s.Inv → l.Fits) (k : Nat) : s.Work (s.setLine k l) :=
  ⟨rfl, fun h => { h with
    lineLength := by simp [h.lineLength]
    lineFits := forall_mem_set h.lineFits (hl h) }⟩

theorem setAdsr {a : Adsr} (ha : s.Inv → a.Fits) (k : Nat) : s.Work (s.setAdsr k a) :=
  ⟨rfl, fun h => { h with
    adsrLength := by simp [h.adsrLength]
    adsrFits := forall_mem_set h.adsrFits (ha h) }⟩

theorem setTrk {b : List Stereo} (hb : s.Inv → b.length = s.cfg.frameLen) (k : Nat) :
    s.Work (s.setTrk k b) :=
  ⟨rfl, fun h => { h with
    trkLength := by simp [h.trkLength]
    trkFits := forall_mem_set h.trkFits (hb h) }⟩

theorem clearTracks (s : State) :
    s.Work (s.setTrks (List.replicate s.cfg.nTracks (silentTrack s.cfg.frameLen))) :=
  ⟨rfl, fun h => { h with
    trkLength := List.length_replicate
    trkFits := fun b hb => by rw [List.eq_of_mem_replicate hb]; exact List.length_replicate }⟩

theorem writeFrame (s : State) :
    s.Work (s.setFrame (Memory.fromBytes 0 ((writtenFrame s).flatMap sampleBytes))) :=
  ⟨rfl, fun h => { h with
    memWf := (writtenFrame_memory s).1
    memInside := (writtenFrame_memory s).2 }⟩

end State.Work

/-! ## The answer -/

/-- The state once a command has answered: one response, the STATUS bit of its outcome (R302), and POISON
where the outcome is `PRECOND` (R303). -/
def State.answered (code : RespCode) (data : List Word) (w : State) : State :=
  { w.respond code data with
    status := w.status ||| statusBit code
    poison := w.poison || code == .precond }

/-- The state `t` is one in which a command that started in `s` has answered. -/
def State.Answers (s t : State) : Prop :=
  ∃ (w : State) (code : RespCode) (data : List Word), s.Work w ∧ t = w.answered code data

theorem State.Answers.of_reply {d : List Word} (hw : s.Work w) (e : reply .ok d w = .next t) : s.Answers t :=
  ⟨w, .ok, d, hw, by simp [reply_eq_next.mp e, State.answered, State.respond, statusBit]⟩

theorem State.Answers.of_raise {c : RespCode} {d : List Word} (hc : c ≠ .precond) (hw : s.Work w)
    (e : raise c d w = .next t) : s.Answers t :=
  ⟨w, c, d, hw, by
    have hp : (w.poison || c == .precond) = w.poison := by simp [hc]
    rw [raise_eq_next.mp e, State.answered, hp]; rfl⟩

theorem State.Answers.of_badHandle {n : Nat} (e : raiseBadHandle n s = .next t) : s.Answers t :=
  of_raise (by decide) (.refl s) e

theorem State.Answers.of_illegal {n : Nat} (e : raiseIllegal n s = .next t) : s.Answers t :=
  of_raise (by decide) (.refl s) e

theorem State.Answers.of_precond {d : List Word} (hw : s.Work w) (e : replyPrecond d w = .next t) :
    s.Answers t :=
  ⟨w, .precond, d, hw, by simp [replyPrecond_eq_next.mp e, State.answered, State.flagPrecond]⟩

/-! ## Every command answers -/

theorem execGenReg_answers {type : BitVec 2} {freq : B32} (e : execGenReg type freq s = .next t) :
    s.Answers t := by
  unfold execGenReg at e
  split at e
  · exact .of_illegal e
  · next kind hkind =>
    split at e
    · exact .of_raise (by decide) (.refl s) e
    · next h _ =>
      split at e
      · exact .of_reply (.setGen (.inl (genKindOf_ne_free hkind)) h) e
      · exact .of_precond (.trans (.setGen (.inl (anySlot_ne_free s)) h) (.skipDraws _ 4)) e

theorem execGenRel_answers {h : BitVec 8} (e : execGenRel h s = .next t) : s.Answers t := by
  unfold execGenRel at e
  split at e
  · exact .of_badHandle e
  · exact .of_reply (.setGen (.inr rfl) h.toNat) e

theorem execGenRd_answers {h : BitVec 8} (e : execGenRd h s = .next t) : s.Answers t := by
  unfold execGenRd at e
  split at e
  · exact .of_badHandle e
  · exact .of_reply (.refl s) e

/-- The delay line a command names fits the capacity the command uses (R25), where the invariant holds. -/
theorem State.Inv.unitAt_dly {i : BitVec 8} {d : Delay} (h : s.Inv)
    (hd : unitAt s.cfg.nDelay s.dly i = some d) : d.Fits (s.cfg.dlyCap.getD i.toNat 0) := by
  obtain ⟨hi, hd⟩ := unitAt_eq_some.mp hd
  refine h.dlyFits i.toNat d _ hd ?_
  rw [List.getD_eq_getElem _ _ hi, List.getElem?_eq_getElem hi]

theorem execDlyApply_answers {i : BitVec 8} {x dl fb : B32} (e : execDlyApply i x dl fb s = .next t) :
    s.Answers t := by
  unfold execDlyApply at e
  split at e
  · exact .of_badHandle e
  · next d hd =>
    have getD_cap {cap : Nat} (hcap : s.cfg.dlyCap[i.toNat]? = some cap) :
        s.cfg.dlyCap.getD i.toNat 0 = cap := by rw [List.getD_eq_getElem?_getD, hcap]; rfl
    simp only at e
    split at e
    · refine .of_reply (.setDly fun h cap hcap => ?_) e
      exact getD_cap hcap ▸ delayStep_fits (h.unitAt_dly hd) _ x fb
    · refine .of_precond (.trans (.setDly fun h cap hcap => ?_) (.skipDraws _ _)) e
      exact getD_cap hcap ▸ anyDelay_fits (one_le_dlyCap h.cfg hcap) s

theorem execRvbCfg_answers {i : BitVec 8} {a b c d p : B32} (e : execRvbCfg i a b c d p s = .next t) :
    s.Answers t := by
  unfold execRvbCfg at e
  split at e
  · exact .of_badHandle e
  · exact .of_reply (.setRvb s _ _) e

theorem execRvbApply_answers {i : BitVec 8} {x : B32} (e : execRvbApply i x s = .next t) :
    s.Answers t := by
  unfold execRvbApply at e
  split at e
  · exact .of_badHandle e
  · exact .of_reply (.setRvb s _ _) e

theorem execFftIn_answers {i : BitVec 8} {x : B32} (e : execFftIn i x s = .next t) : s.Answers t := by
  unfold execFftIn at e
  split at e
  · exact .of_badHandle e
  · next f hf =>
    exact .of_reply (.setFft (fun h => spectralIn_fits (h.fftFits f (unitAt_mem hf)) x) _) e

theorem execFftOut_answers {i : BitVec 8} (e : execFftOut i s = .next t) : s.Answers t := by
  unfold execFftOut at e
  split at e
  · exact .of_badHandle e
  · next f hf =>
    exact .of_reply (.setFft (fun h => spectralOut_fits (h.fftFits f (unitAt_mem hf))) _) e

theorem execFftShift_answers {i : BitVec 8} {r : B32} (e : execFftShift i r s = .next t) :
    s.Answers t := by
  unfold execFftShift at e
  split at e
  · exact .of_badHandle e
  · next f hf =>
    have setPers {p : List Cpx} (hp : p.length = 2 * s.cfg.fftN) :
        s.Work (s.setFft i.toNat { f with pers := p }) :=
      .setFft (fun h => pers_fits (h.fftFits f (unitAt_mem hf)) hp) _
    split at e
    · exact .of_reply (setPers (shiftedSpectrum_length ..)) e
    · exact .of_precond (.trans (setPers (anySpectrum_length ..)) (.skipDraws _ _)) e

theorem execLineSet_answers {j : BitVec 8} {len a b : B32} (e : execLineSet j len a b s = .next t) :
    s.Answers t := by
  unfold execLineSet at e
  split at e
  · exact .of_badHandle e
  · split at e
    · exact .of_reply (.setLine (fun _ => lineSetTo_fits _ a b) _) e
    · exact .of_precond (.trans (.setLine (fun _ => anyLine_fits a b s) _) (.skipDraws _ 2)) e

theorem execLineRst_answers {j : BitVec 8} (e : execLineRst j s = .next t) : s.Answers t := by
  unfold execLineRst at e
  split at e
  · exact .of_badHandle e
  · exact .of_reply (.setLine (fun _ => lineRestart_fits _) _) e

theorem execLineAdv_answers {j : BitVec 8} (e : execLineAdv j s = .next t) : s.Answers t := by
  unfold execLineAdv at e
  split at e
  · exact .of_badHandle e
  · next l hl =>
    exact .of_reply (.setLine (fun h => segAdv_fits (h.lineFits l (unitAt_mem hl))) _) e

theorem execAdsrSet_answers {n : BitVec 8} {seg : Segment} {len a b : B32}
    (e : execAdsrSet n seg len a b s = .next t) : s.Answers t := by
  unfold execAdsrSet at e
  split at e
  · exact .of_badHandle e
  · next u hu =>
    have setSeg {l : Line} (hl : l.Fits) : s.Work (s.setAdsr n.toNat (u.setSegment seg l)) :=
      .setAdsr (fun h => setSegment_fits (h.adsrFits u (unitAt_mem hu)) hl) _
    split at e
    · exact .of_reply (setSeg (lineSetTo_fits _ a b)) e
    · exact .of_precond (.trans (setSeg (anyLine_fits a b s)) (.skipDraws _ 2)) e

theorem execAdsrRst_answers {n : BitVec 8} (e : execAdsrRst n s = .next t) : s.Answers t := by
  unfold execAdsrRst at e
  split at e
  · exact .of_badHandle e
  · exact .of_reply (.setAdsr (fun _ => ⟨lineRestart_fits _, lineRestart_fits _⟩) _) e

theorem execAdsrAdv_answers {n : BitVec 8} {trig : Bool} (e : execAdsrAdv n trig s = .next t) :
    s.Answers t := by
  unfold execAdsrAdv at e
  split at e
  · exact .of_badHandle e
  · next a ha =>
    exact .of_reply (.setAdsr (fun h => adsrStep_fits (h.adsrFits a (unitAt_mem ha)) trig) _) e

theorem execTrkWr_answers {n : BitVec 8} {k : BitVec 11} {ch : Channel} {v : B32}
    (e : execTrkWr n k ch v s = .next t) : s.Answers t := by
  unfold execTrkWr at e
  split at e
  · exact .of_badHandle e
  · next b hb =>
    split at e
    · refine .of_reply (.setTrk (fun h => ?_) _) e
      rw [List.length_set, h.trkFits b (unitAt_mem hb)]
    · exact .of_badHandle e

theorem execMixPeriod_answers (e : execMixPeriod s = .next t) : s.Answers t := by
  have work := ((State.Work.writeFrame s).trans (.clearTracks _)).trans (.skipDraws _ (2 * s.cfg.frameLen))
  unfold execMixPeriod at e
  simp only at e
  split at e
  · exact .of_raise (by decide) work e
  · exact .of_reply work e

theorem execOutRd_answers {k : BitVec 11} (e : execOutRd k s = .next t) : s.Answers t := by
  unfold execOutRd at e
  split at e
  · exact .of_reply (.refl s) e
  · exact .of_badHandle e

theorem execCsrRd_answers {a : BitVec 12} {i : BitVec 8} (e : execCsrRd a i s = .next t) :
    s.Answers t := by
  unfold execCsrRd at e
  split at e
  · exact .of_illegal e
  · split at e
    · exact .of_illegal e
    · split at e
      · exact .of_badHandle e
      · exact .of_reply (.refl s) e

/-- CSR_WR is the one command that can clear bits of STATUS before it answers (R281). -/
theorem execCsrWr_answers {a : BitVec 12} {i : BitVec 8} {v : Word} (e : execCsrWr a i v s = .next t) :
    s.Answers t ∨
      csrOf a = some .status ∧ i = 0#8 ∧ t = (s.clearStatus v).answered .ok [] := by
  unfold execCsrWr at e
  split at e
  · next h =>
    exact .inr ⟨h.1, h.2, by simp [reply_eq_next.mp e, State.answered, State.respond, statusBit]⟩
  · exact .inl (.of_illegal e)

/-- Every command works on its unit and answers once; an accepted CSR_WR clears STATUS bits instead. -/
theorem exec_answers {i : Instr} (e : exec i s = .next t) :
    s.Answers t ∨ ∃ (a : BitVec 12) (v : Word),
      i = .csrWr a 0#8 v ∧ csrOf a = some .status ∧ t = (s.clearStatus v).answered .ok [] := by
  cases i with
  | genReg => exact .inl (execGenReg_answers e)
  | genRel => exact .inl (execGenRel_answers e)
  | genAdv => exact .inl (.of_reply (.genAdv s) e)
  | genRd => exact .inl (execGenRd_answers e)
  | dlyApply => exact .inl (execDlyApply_answers e)
  | rvbCfg => exact .inl (execRvbCfg_answers e)
  | rvbApply => exact .inl (execRvbApply_answers e)
  | fftIn => exact .inl (execFftIn_answers e)
  | fftOut => exact .inl (execFftOut_answers e)
  | fftShift => exact .inl (execFftShift_answers e)
  | lineSet => exact .inl (execLineSet_answers e)
  | lineRst => exact .inl (execLineRst_answers e)
  | lineAdv => exact .inl (execLineAdv_answers e)
  | adsrSet => exact .inl (execAdsrSet_answers e)
  | adsrRst => exact .inl (execAdsrRst_answers e)
  | adsrAdv => exact .inl (execAdsrAdv_answers e)
  | mix => exact .inl (.of_reply (.refl s) e)
  | clamp => exact .inl (.of_reply (.refl s) e)
  | trkWr => exact .inl (execTrkWr_answers e)
  | mixPeriod => exact .inl (execMixPeriod_answers e)
  | outRd => exact .inl (execOutRd_answers e)
  | csrRd => exact .inl (execCsrRd_answers e)
  | csrWr a n v =>
    refine (execCsrWr_answers e).imp_right ?_
    rintro ⟨ha, rfl, ht⟩
    exact ⟨a, v, rfl, ha, ht⟩

/-! ## The invariant along a step -/

/-- The reserved bits of STATUS are those `statusMask` leaves out; no outcome's bit is one of them (R41). -/
theorem statusBit_reserved (c : RespCode) : statusBit c &&& ~~~statusMask = 0#32 := by
  cases c <;> decide

theorem State.Inv.answered (h : w.Inv) (c : RespCode) (d : List Word) : (w.answered c d).Inv :=
  { h with
    statusReserved := by
      show (w.status ||| statusBit c) &&& ~~~statusMask = 0#32
      rw [BitVec.and_comm, BitVec.and_or_distrib_left, BitVec.and_comm, h.statusReserved,
        BitVec.and_comm, statusBit_reserved, BitVec.or_zero] }

theorem State.Inv.clearStatus (h : s.Inv) (v : Word) : (s.clearStatus v).Inv :=
  { h with
    statusReserved := by
      rw [State.clearStatus_status, BitVec.and_assoc, BitVec.and_comm (~~~_), ← BitVec.and_assoc,
        h.statusReserved, BitVec.zero_and] }

theorem State.Inv.consume (h : s.Inv) (rest : List Word) : (s.consume rest).Inv := { h with }

theorem State.Answers.inv (h : s.Answers t) (hs : s.Inv) : t.Inv := by
  obtain ⟨w, c, d, hw, rfl⟩ := h
  exact (hw.inv hs).answered c d

theorem State.Answers.cfg (h : s.Answers t) : t.cfg = s.cfg := by
  obtain ⟨w, c, d, hw, rfl⟩ := h
  exact hw.cfg

theorem exec_inv {i : Instr} (e : exec i s = .next t) (hs : s.Inv) : t.Inv := by
  obtain h | ⟨a, v, -, -, rfl⟩ := exec_answers e
  · exact h.inv hs
  · exact (hs.clearStatus v).answered .ok []

theorem exec_cfg {i : Instr} (e : exec i s = .next t) : t.cfg = s.cfg := by
  obtain h | ⟨a, v, -, -, rfl⟩ := exec_answers e
  · exact h.cfg
  · rfl

/-- A command that is taken is executed, or answered `ILLEGAL` where it does not decode (R85). -/
theorem runCommand_cases {w0 : Word} {ops : List Word} (e : runCommand w0 ops s = .next t) :
    (∃ i, decode w0 ops = .ok i ∧ exec i s = .next t) ∨
      ((∃ x, decode w0 ops = .error x) ∧ s.Answers t) := by
  unfold runCommand at e
  split at e
  · next i hi => exact .inl ⟨i, hi, e⟩
  · next x hx => exact .inr ⟨⟨x, hx⟩, .of_illegal e⟩

/-- A step runs the command at the front of the stream of a block with legal parameters (R300). -/
theorem step_eq_next : step s = .next t ↔ cfgValid s.cfg = true ∧
    ∃ (w0 : Word) (ops rest : List Word), frame s.stream = .command w0 ops rest ∧
      runCommand w0 ops (s.consume rest) = .next t := by
  unfold step
  by_cases hc : cfgValid s.cfg = true
  · rw [if_pos hc]
    cases frame s.stream <;> simp [hc]
  · simp [hc]

theorem step_cfg (e : step s = .next t) : t.cfg = s.cfg := by
  obtain ⟨-, w0, ops, rest, -, e⟩ := step_eq_next.mp e
  obtain ⟨i, -, e⟩ | ⟨-, h⟩ := runCommand_cases e
  · simpa using exec_cfg e
  · exact h.cfg

end Sys2Proof.Machine
end

section
/-! Where the platform places the block (R65): no command reads the platform map. -/

namespace Sys2Proof.Machine

/-- The state of a block placed elsewhere (R65). -/
def State.withPlatform (p : PlatformMap) (s : State) : State :=
  { s with cfg := { s.cfg with platformMap := p } }

/-- An outcome of a block placed elsewhere. -/
def Outcome.withPlatform (p : PlatformMap) : Outcome → Outcome
  | .next s => .next (s.withPlatform p)
  | .fault r => .fault r
  | .refused r => .refused r

variable (p : PlatformMap) (s : State)

/-! ## What a command reads of the state is the same wherever the block is placed -/

theorem liveGen_withPlatform (h : BitVec 8) : (s.withPlatform p).liveGen h = s.liveGen h := rfl

theorem unitAt_dly_withPlatform (i : BitVec 8) :
    unitAt (s.withPlatform p).cfg.nDelay (s.withPlatform p).dly i = unitAt s.cfg.nDelay s.dly i := rfl

theorem unitAt_rvb_withPlatform (i : BitVec 8) :
    unitAt (s.withPlatform p).cfg.nReverb (s.withPlatform p).rvb i = unitAt s.cfg.nReverb s.rvb i := rfl

theorem unitAt_fft_withPlatform (i : BitVec 8) :
    unitAt (s.withPlatform p).cfg.nFft (s.withPlatform p).fft i = unitAt s.cfg.nFft s.fft i := rfl

theorem unitAt_line_withPlatform (j : BitVec 8) :
    unitAt (s.withPlatform p).cfg.nLine (s.withPlatform p).line j = unitAt s.cfg.nLine s.line j := rfl

theorem unitAt_adsr_withPlatform (e : BitVec 8) :
    unitAt (s.withPlatform p).cfg.nAdsr (s.withPlatform p).adsr e = unitAt s.cfg.nAdsr s.adsr e := rfl

theorem unitAt_trk_withPlatform (t : BitVec 8) :
    unitAt (s.withPlatform p).cfg.nTracks (s.withPlatform p).trk t = unitAt s.cfg.nTracks s.trk t := rfl

theorem segLen_withPlatform (len : B32) : segLen (s.withPlatform p).cfg len = segLen s.cfg len := rfl

theorem mixFrame_withPlatform :
    mixFrame (s.withPlatform p).cfg (s.withPlatform p).trk = mixFrame s.cfg s.trk := rfl

theorem csrValue_withPlatform (r : Csr) (i : BitVec 8) :
    csrValue r i (s.withPlatform p) = csrValue r i s := by
  cases r <;> rfl

/-! ## Every command's outcome is the same but for the placement -/

theorem execGenReg_withPlatform (type : BitVec 2) (freq : B32) :
    execGenReg type freq (s.withPlatform p) = (execGenReg type freq s).withPlatform p := by
  have hg : (s.withPlatform p).gen = s.gen := rfl
  have hf : freqOk (s.withPlatform p).cfg freq = freqOk s.cfg freq := rfl
  simp only [execGenReg, hg, hf]
  cases genKindOf type with
  | none => rfl
  | some kind =>
    cases firstFree s.gen with
    | none => rfl
    | some h => cases freqOk s.cfg freq <;> rfl

theorem execDlyApply_withPlatform (i : BitVec 8) (x d fb : B32) :
    execDlyApply i x d fb (s.withPlatform p) = (execDlyApply i x d fb s).withPlatform p := by
  have hcap : (s.withPlatform p).cfg.dlyCap = s.cfg.dlyCap := rfl
  have hraw : delayRaw (s.withPlatform p).cfg d = delayRaw s.cfg d := rfl
  simp only [execDlyApply, unitAt_dly_withPlatform, hcap, hraw]
  cases unitAt s.cfg.nDelay s.dly i with
  | none => rfl
  | some l => cases delayPreOk (delayRaw s.cfg d) fb (s.cfg.dlyCap.getD i.toNat 0) <;> rfl

theorem execFftShift_withPlatform (i : BitVec 8) (r : B32) :
    execFftShift i r (s.withPlatform p) = (execFftShift i r s).withPlatform p := by
  simp only [execFftShift, unitAt_fft_withPlatform]
  cases unitAt s.cfg.nFft s.fft i with
  | none => rfl
  | some f => cases flt zero32 r <;> rfl

theorem execLineSet_withPlatform (j : BitVec 8) (len a b : B32) :
    execLineSet j len a b (s.withPlatform p) = (execLineSet j len a b s).withPlatform p := by
  simp only [execLineSet, unitAt_line_withPlatform, segLen_withPlatform]
  cases unitAt s.cfg.nLine s.line j with
  | none => rfl
  | some l => cases segLen s.cfg len <;> rfl

theorem execAdsrSet_withPlatform (e : BitVec 8) (seg : Segment) (len a b : B32) :
    execAdsrSet e seg len a b (s.withPlatform p) = (execAdsrSet e seg len a b s).withPlatform p := by
  simp only [execAdsrSet, unitAt_adsr_withPlatform, segLen_withPlatform]
  cases unitAt s.cfg.nAdsr s.adsr e with
  | none => rfl
  | some u => cases segLen s.cfg len <;> rfl

theorem execTrkWr_withPlatform (t : BitVec 8) (k : BitVec 11) (ch : Channel) (v : B32) :
    execTrkWr t k ch v (s.withPlatform p) = (execTrkWr t k ch v s).withPlatform p := by
  have hlen : (s.withPlatform p).cfg.frameLen = s.cfg.frameLen := rfl
  simp only [execTrkWr, unitAt_trk_withPlatform, hlen]
  cases unitAt s.cfg.nTracks s.trk t with
  | none => rfl
  | some b => by_cases hk : k.toNat < s.cfg.frameLen <;> simp only [hk] <;> rfl

theorem execMixPeriod_withPlatform :
    execMixPeriod (s.withPlatform p) = (execMixPeriod s).withPlatform p := by
  unfold execMixPeriod
  rw [mixFrame_withPlatform]
  cases (mixFrame s.cfg s.trk).any Option.isNone <;> rfl

theorem execOutRd_withPlatform (k : BitVec 11) :
    execOutRd k (s.withPlatform p) = (execOutRd k s).withPlatform p := by
  have hlen : (s.withPlatform p).cfg.frameLen = s.cfg.frameLen := rfl
  simp only [execOutRd, hlen]
  by_cases hk : k.toNat < s.cfg.frameLen <;> simp only [hk] <;> rfl

theorem execCsrRd_withPlatform (a : BitVec 12) (i : BitVec 8) :
    execCsrRd a i (s.withPlatform p) = (execCsrRd a i s).withPlatform p := by
  simp only [execCsrRd, csrValue_withPlatform]
  cases csrOf a with
  | none => rfl
  | some r =>
    by_cases hr : r.unit = none ∧ i ≠ 0#8
    · simp only [if_pos hr]; rfl
    · simp only [if_neg hr]
      cases csrValue r i s <;> rfl

theorem execCsrWr_withPlatform (a : BitVec 12) (i : BitVec 8) (v : Word) :
    execCsrWr a i v (s.withPlatform p) = (execCsrWr a i v s).withPlatform p := by
  by_cases h : csrOf a = some .status ∧ i = 0#8 <;> simp only [execCsrWr, h] <;> rfl

theorem exec_withPlatform (i : Instr) :
    exec i (s.withPlatform p) = Outcome.withPlatform p (exec i s) := by
  cases i with
  | genReg => exact execGenReg_withPlatform ..
  | genRel h =>
    simp only [exec, execGenRel, liveGen_withPlatform]
    cases s.liveGen h <;> rfl
  | genAdv => rfl
  | genRd h =>
    simp only [exec, execGenRd, liveGen_withPlatform]
    cases s.liveGen h <;> rfl
  | dlyApply => exact execDlyApply_withPlatform ..
  | rvbCfg i =>
    simp only [exec, execRvbCfg, unitAt_rvb_withPlatform]
    cases unitAt s.cfg.nReverb s.rvb i <;> rfl
  | rvbApply i =>
    simp only [exec, execRvbApply, unitAt_rvb_withPlatform]
    cases unitAt s.cfg.nReverb s.rvb i <;> rfl
  | fftIn i =>
    simp only [exec, execFftIn, unitAt_fft_withPlatform]
    cases unitAt s.cfg.nFft s.fft i <;> rfl
  | fftOut i =>
    simp only [exec, execFftOut, unitAt_fft_withPlatform]
    cases unitAt s.cfg.nFft s.fft i <;> rfl
  | fftShift => exact execFftShift_withPlatform ..
  | lineSet => exact execLineSet_withPlatform ..
  | lineRst j =>
    simp only [exec, execLineRst, unitAt_line_withPlatform]
    cases unitAt s.cfg.nLine s.line j <;> rfl
  | lineAdv j =>
    simp only [exec, execLineAdv, unitAt_line_withPlatform]
    cases unitAt s.cfg.nLine s.line j <;> rfl
  | adsrSet => exact execAdsrSet_withPlatform ..
  | adsrRst e =>
    simp only [exec, execAdsrRst, unitAt_adsr_withPlatform]
    cases unitAt s.cfg.nAdsr s.adsr e <;> rfl
  | adsrAdv e =>
    simp only [exec, execAdsrAdv, unitAt_adsr_withPlatform]
    cases unitAt s.cfg.nAdsr s.adsr e <;> rfl
  | mix => rfl
  | clamp => rfl
  | trkWr => exact execTrkWr_withPlatform ..
  | mixPeriod => exact execMixPeriod_withPlatform ..
  | outRd => exact execOutRd_withPlatform ..
  | csrRd => exact execCsrRd_withPlatform ..
  | csrWr => exact execCsrWr_withPlatform ..

theorem runCommand_withPlatform (w0 : Word) (ops : List Word) :
    runCommand w0 ops (s.withPlatform p) = (runCommand w0 ops s).withPlatform p := by
  unfold runCommand
  cases decode w0 ops with
  | ok i => exact exec_withPlatform p s i
  | error _ => rfl

theorem step_withPlatform : step (s.withPlatform p) = Outcome.withPlatform p (step s) := by
  have hc : cfgValid (s.withPlatform p).cfg = cfgValid s.cfg := rfl
  have hs : (s.withPlatform p).stream = s.stream := rfl
  unfold step
  rw [hc, hs]
  cases cfgValid s.cfg with
  | false => rfl
  | true =>
    cases frame s.stream with
    | empty => rfl
    | pending => rfl
    | command w0 ops rest => exact runCommand_withPlatform p (s.consume rest) w0 ops

end Sys2Proof.Machine
end

section
/-! The obligations on the scope of the block: its parameters, its invariant, the words of a response. -/

namespace Sys2Proof.Machine

/-- Settles O4: a step takes a command off the stream and answers it, and both keep the invariant. -/
theorem stepKeepsTheInvariant : Obligations.StepKeepsTheInvariant := by
  intro s t hs e
  obtain ⟨-, w0, ops, rest, -, e⟩ := step_eq_next.mp e
  obtain ⟨i, -, e⟩ | ⟨-, h⟩ := runCommand_cases e
  · exact exec_inv e (hs.consume rest)
  · exact h.inv (hs.consume rest)

/-- Settles O16: every command keeps the parameters, and its outcome is the same but for the placement. -/
theorem parametersNeverChange : Obligations.ParametersNeverChange := by
  intro s t e
  refine ⟨step_cfg e, fun p => ?_⟩
  show step (s.withPlatform p) = .next (t.withPlatform p)
  rw [step_withPlatform, e]
  rfl

/-- Settles O13: the step looks at the bounds first, and they are those of R5. -/
theorem badConfigurationIsRefused : Obligations.BadConfigurationIsRefused := by
  refine ⟨fun s h => ?_, cfgValid_iff⟩
  simp only [step, h, Bool.false_eq_true, if_false]

/-- Settles O21: `respond` carries `replyData`, whose two cases are the two clauses. -/
theorem responseCarriesFreeWordsOncePoisoned : Obligations.ResponseCarriesFreeWordsOncePoisoned := by
  refine fun s code data => ⟨fun h => ?_, fun h => ?_⟩
  · rw [State.respond, replyData_specified h, h]; rfl
  · rw [State.respond, replyData_poisoned h, h]; rfl

end Sys2Proof.Machine
end

section
/-! Every step answers the command it takes: where it leaves the pc, the stream, the responses and POISON. -/

namespace Sys2Proof.Machine

variable {s t w : State}

/-! ## What stands at the front of the stream -/

/-- A whole command at the front of the stream is its command word, `LEN` operand words, and the rest (R87). -/
theorem frame_eq_command {ws ops rest : List Word} {w0 : Word} (h : frame ws = .command w0 ops rest) :
    ws = w0 :: (ops ++ rest) ∧ ops.length = (fieldLen w0).toNat := by
  cases ws with
  | nil => cases h
  | cons x xs =>
    simp only [frame] at h
    split at h
    · next hl =>
      obtain ⟨rfl, rfl, rfl⟩ := Framing.command.inj h
      exact ⟨by rw [List.take_append_drop], List.length_take_of_le hl⟩
    · cases h

/-! ## The answer of a command, and of a step -/

/-- The state `t` is one in which a command has answered that started in `s`, whose pc, stream, responses
and POISON it left alone until its answer. An accepted CSR_WR is among these commands. -/
def State.AnswersOnce (s t : State) : Prop :=
  ∃ (w : State) (code : RespCode) (data : List Word),
    t = w.answered code data ∧
    w.pc = s.pc ∧ w.stream = s.stream ∧ w.responses = s.responses ∧ w.poison = s.poison

theorem State.Answers.answersOnce (h : s.Answers t) : s.AnswersOnce t := by
  obtain ⟨w, code, data, hw, ht⟩ := h
  exact ⟨w, code, data, ht, by rw [hw.frame], by rw [hw.frame], by rw [hw.frame], by rw [hw.frame]⟩

theorem exec_answersOnce {i : Instr} (e : exec i s = .next t) : s.AnswersOnce t := by
  obtain h | ⟨a, v, -, -, ht⟩ := exec_answers e
  · exact h.answersOnce
  · exact ⟨s.clearStatus v, .ok, [], ht, rfl, rfl, rfl, rfl⟩

theorem runCommand_answersOnce {w0 : Word} {ops : List Word} (e : runCommand w0 ops s = .next t) :
    s.AnswersOnce t := by
  obtain ⟨i, -, e⟩ | ⟨-, h⟩ := runCommand_cases e
  · exact exec_answersOnce e
  · exact h.answersOnce

/-- A step takes the whole command at the front of the stream and answers it. -/
theorem step_answersOnce (e : step s = .next t) : ∃ (w0 : Word) (ops rest : List Word),
    frame s.stream = .command w0 ops rest ∧ (s.consume rest).AnswersOnce t := by
  obtain ⟨-, w0, ops, rest, hf, e⟩ := step_eq_next.mp e
  exact ⟨w0, ops, rest, hf, runCommand_answersOnce e⟩

/-- Settles O14: the step moves the pc as it takes the command's words, and the answer moves neither. -/
theorem everyCommandMovesThePcByOne : Obligations.EveryCommandMovesThePcByOne := by
  intro s t e
  obtain ⟨w0, ops, rest, hf, w, code, data, rfl, hpc, hstream, -, -⟩ := step_answersOnce e
  obtain ⟨hs, hlen⟩ := frame_eq_command hf
  refine ⟨hpc, w0, ops, ?_, hlen⟩
  have ht : (w.answered code data).stream = rest := hstream
  rw [ht, hs]

/-- Settles O17: an answer ors `code = PRECOND` into POISON, and nothing else of a step writes it. -/
theorem poisonIsStickyAndComesFromPrecond : Obligations.PoisonIsStickyAndComesFromPrecond := by
  intro s t e
  obtain ⟨w0, ops, rest, -, w, code, data, rfl, -, -, hresp, hpoison⟩ := step_answersOnce e
  refine ⟨⟨code, w.replyData data⟩, congrArg (· ++ _) hresp, ?_⟩
  have hp : w.poison = s.poison := hpoison
  simp [State.answered, hp]

end Sys2Proof.Machine
end

section
/-! The frame of every command: the writes of each unit's commands, and what they leave unchanged. -/

namespace Sys2Proof.Machine

/-- The states a command `i` can leave behind from `s`: it rewrites its own unit, there only the entry `IDX`
names (GEN_REG, GEN_ADV and MIX_PERIOD have no index), and records its answer. -/
inductive State.Writes (i : Instr) (s : State) : State → Prop
  | nothing : State.Writes i s s
  | genTable (h : i.opc = 0x01#8 ∨ i.opc = 0x03#8) (gs : List GenSlot) : State.Writes i s (s.setGens gs)
  | genSlot (h : i.opc = 0x02#8) (g : GenSlot) : State.Writes i s (s.setGen i.idx.toNat g)
  | dly (h : i.opc = 0x10#8) (d : Delay) : State.Writes i s (s.setDly i.idx.toNat d)
  | rvb (h : i.opc = 0x20#8 ∨ i.opc = 0x21#8) (r : Reverb) : State.Writes i s (s.setRvb i.idx.toNat r)
  | fft (h : i.opc = 0x30#8 ∨ i.opc = 0x31#8 ∨ i.opc = 0x32#8) (f : Spectral) :
      State.Writes i s (s.setFft i.idx.toNat f)
  | line (h : i.opc = 0x40#8 ∨ i.opc = 0x41#8 ∨ i.opc = 0x42#8) (l : Line) :
      State.Writes i s (s.setLine i.idx.toNat l)
  | adsr (h : i.opc = 0x48#8 ∨ i.opc = 0x49#8 ∨ i.opc = 0x4A#8) (a : Adsr) :
      State.Writes i s (s.setAdsr i.idx.toNat a)
  | trk (h : i.opc = 0x60#8) (b : List Stereo) : State.Writes i s (s.setTrk i.idx.toNat b)
  | period (h : i.opc = 0x61#8) (m : Memory) (bs : List (List Stereo)) :
      State.Writes i s ((s.setFrame m).setTrks bs)
  | records {w : State} (hw : State.Writes i s w) (status : Word) (rs : List Response) (poison : Bool)
      (draws : Nat) : State.Writes i s
        { w with status := status, responses := rs, poison := poison, draws := draws }

namespace State.Writes

variable {i : Instr} {s t w : State}

theorem skipDraws (hw : s.Writes i w) (n : Nat) : s.Writes i (w.skipDraws n) := hw.records ..

theorem reply {c : RespCode} {d : List Word} (hw : s.Writes i w) (e : reply c d w = .next t) :
    s.Writes i t := by
  rw [reply_eq_next.mp e]; exact hw.records ..

theorem raise {c : RespCode} {d : List Word} (hw : s.Writes i w) (e : raise c d w = .next t) :
    s.Writes i t := by
  rw [raise_eq_next.mp e]; exact hw.records ..

theorem precond {d : List Word} (hw : s.Writes i w) (e : replyPrecond d w = .next t) : s.Writes i t := by
  rw [replyPrecond_eq_next.mp e]; exact hw.records ..

/-- An error records its answer and nothing else (R302). -/
theorem error {c : RespCode} {d : List Word} (e : Machine.raise c d s = .next t) : s.Writes i t :=
  raise .nothing e

end State.Writes

variable {i : Instr} {s t w : State}

/-! ## Every command writes its own unit -/

theorem execGenReg_writes {type : BitVec 2} {freq : B32} (e : execGenReg type freq s = .next t) :
    s.Writes (.genReg type freq) t := by
  unfold execGenReg at e
  split at e
  · exact .error e
  · split at e
    · exact .error e
    · split at e
      · exact .reply (.genTable (.inl rfl) _) e
      · exact .precond (.skipDraws (.genTable (.inl rfl) _) 4) e

theorem execDlyApply_writes {n : BitVec 8} {x d fb : B32} (e : execDlyApply n x d fb s = .next t) :
    s.Writes (.dlyApply n x d fb) t := by
  unfold execDlyApply at e
  split at e
  · exact .error e
  · simp only at e
    split at e
    · exact .reply (.dly rfl _) e
    · exact .precond (.skipDraws (.dly rfl _) _) e

theorem execFftShift_writes {n : BitVec 8} {r : B32} (e : execFftShift n r s = .next t) :
    s.Writes (.fftShift n r) t := by
  unfold execFftShift at e
  split at e
  · exact .error e
  · split at e
    · exact .reply (.fft (.inr (.inr rfl)) _) e
    · exact .precond (.skipDraws (.fft (.inr (.inr rfl)) _) _) e

theorem execLineSet_writes {j : BitVec 8} {len a b : B32} (e : execLineSet j len a b s = .next t) :
    s.Writes (.lineSet j len a b) t := by
  unfold execLineSet at e
  split at e
  · exact .error e
  · split at e
    · exact .reply (.line (.inl rfl) _) e
    · exact .precond (.skipDraws (.line (.inl rfl) _) 2) e

theorem execAdsrSet_writes {n : BitVec 8} {seg : Segment} {len a b : B32}
    (e : execAdsrSet n seg len a b s = .next t) : s.Writes (.adsrSet n seg len a b) t := by
  unfold execAdsrSet at e
  split at e
  · exact .error e
  · split at e
    · exact .reply (.adsr (.inl rfl) _) e
    · exact .precond (.skipDraws (.adsr (.inl rfl) _) 2) e

theorem execTrkWr_writes {n : BitVec 8} {k : BitVec 11} {ch : Channel} {v : B32}
    (e : execTrkWr n k ch v s = .next t) : s.Writes (.trkWr n k ch v) t := by
  unfold execTrkWr at e
  split at e
  · exact .error e
  · split at e
    · exact .reply (.trk rfl _) e
    · exact .error e

theorem execMixPeriod_writes (e : execMixPeriod s = .next t) : s.Writes .mixPeriod t := by
  unfold execMixPeriod at e
  simp only at e
  split at e
  · exact .raise (.skipDraws (.period rfl _ _) _) e
  · exact .reply (.skipDraws (.period rfl _ _) _) e

theorem execOutRd_writes {k : BitVec 11} (e : execOutRd k s = .next t) : s.Writes (.outRd k) t := by
  unfold execOutRd at e
  split at e
  · exact .reply .nothing e
  · exact .error e

theorem execCsrRd_writes {a : BitVec 12} {n : BitVec 8} (e : execCsrRd a n s = .next t) :
    s.Writes (.csrRd a n) t := by
  unfold execCsrRd at e
  split at e
  · exact .error e
  · split at e
    · exact .error e
    · split at e
      · exact .error e
      · exact .reply .nothing e

theorem execCsrWr_writes {a : BitVec 12} {n : BitVec 8} {v : Word} (e : execCsrWr a n v s = .next t) :
    s.Writes (.csrWr a n v) t := by
  unfold execCsrWr at e
  split at e
  · exact .reply (.records .nothing _ _ _ _) e
  · exact .error e

/-- Every command writes only its own unit, and records its answer. -/
theorem exec_writes (e : exec i s = .next t) : s.Writes i t := by
  cases i with
  | genReg => exact execGenReg_writes e
  | genRel =>
    simp only [exec, execGenRel] at e
    split at e
    exacts [.error e, .reply (.genSlot rfl _) e]
  | genAdv => exact .reply (.genTable (.inr rfl) _) e
  | genRd =>
    simp only [exec, execGenRd] at e
    split at e
    exacts [.error e, .reply .nothing e]
  | dlyApply => exact execDlyApply_writes e
  | rvbCfg =>
    simp only [exec, execRvbCfg] at e
    split at e
    exacts [.error e, .reply (.rvb (.inl rfl) _) e]
  | rvbApply =>
    simp only [exec, execRvbApply] at e
    split at e
    exacts [.error e, .reply (.rvb (.inr rfl) _) e]
  | fftIn =>
    simp only [exec, execFftIn] at e
    split at e
    exacts [.error e, .reply (.fft (.inl rfl) _) e]
  | fftOut =>
    simp only [exec, execFftOut] at e
    split at e
    exacts [.error e, .reply (.fft (.inr (.inl rfl)) _) e]
  | fftShift => exact execFftShift_writes e
  | lineSet => exact execLineSet_writes e
  | lineRst =>
    simp only [exec, execLineRst] at e
    split at e
    exacts [.error e, .reply (.line (.inr (.inl rfl)) _) e]
  | lineAdv =>
    simp only [exec, execLineAdv] at e
    split at e
    exacts [.error e, .reply (.line (.inr (.inr rfl)) _) e]
  | adsrSet => exact execAdsrSet_writes e
  | adsrRst =>
    simp only [exec, execAdsrRst] at e
    split at e
    exacts [.error e, .reply (.adsr (.inr (.inl rfl)) _) e]
  | adsrAdv =>
    simp only [exec, execAdsrAdv] at e
    split at e
    exacts [.error e, .reply (.adsr (.inr (.inr rfl)) _) e]
  | mix => exact .reply .nothing e
  | clamp => exact .reply .nothing e
  | trkWr => exact execTrkWr_writes e
  | mixPeriod => exact execMixPeriod_writes e
  | outRd => exact execOutRd_writes e
  | csrRd => exact execCsrRd_writes e
  | csrWr => exact execCsrWr_writes e

/-- Settles O22: by induction on the writes, each of which is to the unit whose opcodes it names. -/
theorem commandsWriteOnlyTheirUnits : Obligations.CommandsWriteOnlyTheirUnits := by
  intro i s t e
  have hw := exec_writes e
  clear e
  induction hw with
  | nothing => simp
  | genTable h => rcases h with h | h <;> simp [h]
  | genSlot h => simp +contextual [h, ne_comm]
  | dly h => simp +contextual [h, ne_comm]
  | rvb h => rcases h with h | h <;> simp +contextual [h, ne_comm]
  | fft h => rcases h with h | h | h <;> simp +contextual [h, ne_comm]
  | line h => rcases h with h | h | h <;> simp +contextual [h, ne_comm]
  | adsr h => rcases h with h | h | h <;> simp +contextual [h, ne_comm]
  | trk h => simp +contextual [h, ne_comm]
  | period h => simp [h]
  | records _ _ _ _ _ ih => exact ih

end Sys2Proof.Machine
end

section
/-! The states `KST` of the reverb kernels (R45, R161): no command but RVB_APPLY reads them. -/

namespace Sys2Proof.Machine

/-- A reverb block whose kernel has another state. -/
def Reverb.mapKst (hide : RvbState → RvbState) (r : Reverb) : Reverb := { r with kst := hide r.kst }

/-- The state of a block whose reverb kernels have other states. -/
def State.mapKst (hide : RvbState → RvbState) (s : State) : State :=
  { s with rvb := s.rvb.map (Reverb.mapKst hide) }

/-- An outcome of a block whose reverb kernels have other states. -/
def Outcome.mapKst (hide : RvbState → RvbState) : Outcome → Outcome
  | .next s => .next (s.mapKst hide)
  | .fault r => .fault r
  | .refused r => .refused r

variable (hide : RvbState → RvbState) (s : State)

theorem Outcome.mapKst_ite {c : Prop} [Decidable c] (a b : Outcome) :
    Outcome.mapKst hide (if c then a else b) =
      if c then Outcome.mapKst hide a else Outcome.mapKst hide b :=
  apply_ite ..

/-! ## What a command reads of the state -/

/-- What an index names in a list of units that are all rewritten. -/
theorem unitAt_map {α β : Type} (f : α → β) (count : Nat) (us : List α) (i : BitVec 8) :
    unitAt count (us.map f) i = (unitAt count us i).map f := by
  unfold unitAt
  split
  · exact List.getElem?_map
  · rfl

theorem unitAt_rvb_mapKst (i : BitVec 8) : unitAt (s.mapKst hide).cfg.nReverb (s.mapKst hide).rvb i =
    (unitAt s.cfg.nReverb s.rvb i).map (Reverb.mapKst hide) :=
  unitAt_map ..

@[simp] theorem State.mapKst_cfg : (s.mapKst hide).cfg = s.cfg := rfl
@[simp] theorem State.mapKst_gen : (s.mapKst hide).gen = s.gen := rfl
@[simp] theorem State.mapKst_dly : (s.mapKst hide).dly = s.dly := rfl
@[simp] theorem State.mapKst_fft : (s.mapKst hide).fft = s.fft := rfl
@[simp] theorem State.mapKst_line : (s.mapKst hide).line = s.line := rfl
@[simp] theorem State.mapKst_adsr : (s.mapKst hide).adsr = s.adsr := rfl
@[simp] theorem State.mapKst_trk : (s.mapKst hide).trk = s.trk := rfl
@[simp] theorem State.mapKst_liveGen (h : BitVec 8) : (s.mapKst hide).liveGen h = s.liveGen h := rfl

/-- No register reads the state of a kernel (R45). -/
theorem csrValue_mapKst (r : Csr) (i : BitVec 8) : csrValue r i (s.mapKst hide) = csrValue r i s := by
  cases r with
  | rvbIdx | rvbShadow | rvbActive =>
    simp only [csrValue, unitAt_rvb_mapKst, Option.map_map]; rfl
  | _ => rfl

/-- Replacing a reverb block commutes with giving every kernel the other state. -/
theorem State.setRvb_mapKst (k : Nat) (r : Reverb) :
    (s.mapKst hide).setRvb k (r.mapKst hide) = (s.setRvb k r).mapKst hide := by
  simp only [State.mapKst, State.setRvb, List.map_set]

/-! ## Every command but RVB_APPLY does the same -/

theorem execGenReg_mapKst (type : BitVec 2) (freq : B32) :
    execGenReg type freq (s.mapKst hide) = (execGenReg type freq s).mapKst hide := by
  simp only [execGenReg, State.mapKst_gen, State.mapKst_cfg]
  cases genKindOf type with
  | none => rfl
  | some kind =>
    cases firstFree s.gen with
    | none => rfl
    | some h => simp only [Outcome.mapKst_ite]; rfl

theorem execRvbCfg_mapKst (i : BitVec 8) (wet decay room cutoff predelay : B32) :
    execRvbCfg i wet decay room cutoff predelay (s.mapKst hide) =
      (execRvbCfg i wet decay room cutoff predelay s).mapKst hide := by
  simp only [execRvbCfg, unitAt_rvb_mapKst]
  cases unitAt s.cfg.nReverb s.rvb i with
  | none => rfl
  | some r =>
    exact congrArg (reply .ok []) (s.setRvb_mapKst hide i.toNat
      { r with shadow := ⟨wet, decay, room, cutoff, predelay⟩ })

theorem execDlyApply_mapKst (i : BitVec 8) (x d fb : B32) :
    execDlyApply i x d fb (s.mapKst hide) = (execDlyApply i x d fb s).mapKst hide := by
  simp only [execDlyApply, State.mapKst_cfg, State.mapKst_dly]
  cases unitAt s.cfg.nDelay s.dly i with
  | none => rfl
  | some l => simp only [Outcome.mapKst_ite]; rfl

theorem execFftShift_mapKst (i : BitVec 8) (r : B32) :
    execFftShift i r (s.mapKst hide) = (execFftShift i r s).mapKst hide := by
  simp only [execFftShift, State.mapKst_cfg, State.mapKst_fft]
  cases unitAt s.cfg.nFft s.fft i with
  | none => rfl
  | some f => simp only [Outcome.mapKst_ite]; rfl

theorem execLineSet_mapKst (j : BitVec 8) (len a b : B32) :
    execLineSet j len a b (s.mapKst hide) = (execLineSet j len a b s).mapKst hide := by
  simp only [execLineSet, State.mapKst_cfg, State.mapKst_line]
  cases unitAt s.cfg.nLine s.line j with
  | none => rfl
  | some l => cases segLen s.cfg len <;> rfl

theorem execAdsrSet_mapKst (e : BitVec 8) (seg : Segment) (len a b : B32) :
    execAdsrSet e seg len a b (s.mapKst hide) = (execAdsrSet e seg len a b s).mapKst hide := by
  simp only [execAdsrSet, State.mapKst_cfg, State.mapKst_adsr]
  cases unitAt s.cfg.nAdsr s.adsr e with
  | none => rfl
  | some u => cases segLen s.cfg len <;> rfl

theorem execTrkWr_mapKst (t : BitVec 8) (k : BitVec 11) (ch : Channel) (v : B32) :
    execTrkWr t k ch v (s.mapKst hide) = (execTrkWr t k ch v s).mapKst hide := by
  simp only [execTrkWr, State.mapKst_cfg, State.mapKst_trk]
  cases unitAt s.cfg.nTracks s.trk t with
  | none => rfl
  | some b => simp only [Outcome.mapKst_ite]; rfl

/-- The state MIX_PERIOD leaves before it answers. -/
theorem setFrame_mapKst (m : Memory) (bs : List (List Stereo)) (n : Nat) :
    (((s.mapKst hide).setFrame m).setTrks bs).skipDraws n =
      (((s.setFrame m).setTrks bs).skipDraws n).mapKst hide := rfl

theorem execMixPeriod_mapKst : execMixPeriod (s.mapKst hide) = (execMixPeriod s).mapKst hide := by
  have hframe : writtenFrame (s.mapKst hide) = writtenFrame s := rfl
  simp only [execMixPeriod, State.mapKst_cfg, State.mapKst_trk, hframe, setFrame_mapKst,
    Outcome.mapKst_ite]
  rfl

theorem execCsrRd_mapKst (a : BitVec 12) (i : BitVec 8) :
    execCsrRd a i (s.mapKst hide) = (execCsrRd a i s).mapKst hide := by
  simp only [execCsrRd, csrValue_mapKst]
  cases csrOf a with
  | none => rfl
  | some r =>
    simp only [Outcome.mapKst_ite]
    cases csrValue r i s <;> rfl

/-- Every command but RVB_APPLY has the same outcome, up to the states of the kernels. -/
theorem exec_mapKst {i : Instr} (hi : i.opc ≠ 0x21#8) :
    exec i (s.mapKst hide) = Outcome.mapKst hide (exec i s) := by
  cases i with
  | genReg => exact execGenReg_mapKst ..
  | genRel h =>
    simp only [exec, execGenRel, State.mapKst_liveGen]
    cases s.liveGen h <;> rfl
  | genAdv => rfl
  | genRd h =>
    simp only [exec, execGenRd, State.mapKst_liveGen]
    cases s.liveGen h <;> rfl
  | dlyApply => exact execDlyApply_mapKst ..
  | rvbCfg => exact execRvbCfg_mapKst ..
  | rvbApply => exact absurd rfl hi
  | fftIn i =>
    simp only [exec, execFftIn, State.mapKst_cfg, State.mapKst_fft]
    cases unitAt s.cfg.nFft s.fft i <;> rfl
  | fftOut i =>
    simp only [exec, execFftOut, State.mapKst_cfg, State.mapKst_fft]
    cases unitAt s.cfg.nFft s.fft i <;> rfl
  | fftShift => exact execFftShift_mapKst ..
  | lineSet => exact execLineSet_mapKst ..
  | lineRst j =>
    simp only [exec, execLineRst, State.mapKst_cfg, State.mapKst_line]
    cases unitAt s.cfg.nLine s.line j <;> rfl
  | lineAdv j =>
    simp only [exec, execLineAdv, State.mapKst_cfg, State.mapKst_line]
    cases unitAt s.cfg.nLine s.line j <;> rfl
  | adsrSet => exact execAdsrSet_mapKst ..
  | adsrRst e =>
    simp only [exec, execAdsrRst, State.mapKst_cfg, State.mapKst_adsr]
    cases unitAt s.cfg.nAdsr s.adsr e <;> rfl
  | adsrAdv e =>
    simp only [exec, execAdsrAdv, State.mapKst_cfg, State.mapKst_adsr]
    cases unitAt s.cfg.nAdsr s.adsr e <;> rfl
  | mix => rfl
  | clamp => rfl
  | trkWr => exact execTrkWr_mapKst ..
  | mixPeriod => exact execMixPeriod_mapKst ..
  | outRd => simp only [exec, execOutRd, Outcome.mapKst_ite]; rfl
  | csrRd => exact execCsrRd_mapKst ..
  | csrWr => simp only [exec, execCsrWr, Outcome.mapKst_ite]; rfl

/-- Settles O60: the command's outcome is the same but for the states of the kernels. -/
theorem kernelStateIsNotReadable : Obligations.KernelStateIsNotReadable := by
  intro i s t hide hi e
  show exec i (s.mapKst hide) = .next (t.mapKst hide)
  rw [exec_mapKst hide s hi, e]
  rfl

end Sys2Proof.Machine
end

section
/-! What CSR_RD replies for a register, and the registers it reads (R41 to R48, R280). -/

namespace Sys2Proof.Machine

variable {s : State} {a : BitVec 12} {n : BitVec 8} {r : Csr} {v : Word}

/-- CSR_RD of a register in range replies its value and changes nothing (R280). -/
theorem exec_csrRd_of_value (ha : csrOf a = some r) (hn : r.unit = none → n = 0#8)
    (hv : csrValue r n s = some v) : exec (.csrRd a n) s = .next (s.respond .ok [v]) := by
  have hg : ¬ (r.unit = none ∧ n ≠ 0#8) := fun h => h.2 (hn h.1)
  simp only [exec, execCsrRd, ha, if_neg hg, hv]
  rfl

/-- What is read of the unit that an index in range names. -/
theorem map_unitAt {α β : Type} {count : Nat} {us : List α} {u : α} (hi : n.toNat < count)
    (hu : us[n.toNat]? = some u) (f : α → β) : (unitAt count us n).map f = some (f u) := by
  rw [unitAt_eq_some.mpr ⟨hi, hu⟩]; rfl

/-- Two packed fields, as one number. -/
theorem ofNat_append_ofNat {m k x y : Nat} (hy : y < 2 ^ k) :
    BitVec.ofNat m x ++ BitVec.ofNat k y = BitVec.ofNat (m + k) (x * 2 ^ k + y) := by
  refine BitVec.eq_of_toNat_eq ?_
  rw [BitVec.toNat_append, ← Nat.shiftLeft_add_eq_or_of_lt (BitVec.isLt _), Nat.shiftLeft_eq,
    BitVec.toNat_ofNat, BitVec.toNat_ofNat, BitVec.toNat_ofNat, Nat.mod_eq_of_lt hy, Nat.pow_add,
    Nat.mul_comm (2 ^ m), Nat.mod_mul, Nat.mul_comm x, Nat.mul_add_mod, Nat.mod_eq_of_lt hy,
    Nat.mul_add_div (Nat.two_pow_pos k), Nat.div_eq_of_lt hy, Nat.add_zero]
  ring

/-- `UNITS` packs the counts of the units, each of which 4 bits hold where the parameters are legal (R5, R42). -/
theorem unitsWord_of_cfgValid {c : Config} (h : cfgValid c = true) :
    unitsWord c = BitVec.ofNat 32
      (c.nDelay + 16 * c.nReverb + 256 * c.nFft + 4096 * c.nLine + 65536 * c.nAdsr) := by
  obtain ⟨-, -, -, -, ⟨-, dly⟩, -, ⟨-, rvb⟩, ⟨-, fft⟩, -, -, -, line, adsr⟩ := (cfgValid_iff c).mp h
  rw [unitsWord, show (0#12) = BitVec.ofNat 12 0 from rfl,
    ofNat_append_ofNat (by omega), ofNat_append_ofNat (by omega), ofNat_append_ofNat (by omega),
    ofNat_append_ofNat (by omega), ofNat_append_ofNat (by show c.dlyCap.length < _; omega)]
  congr 1
  ring

/-- Settles O57: each address of R41 and R42 is its register's, which reads the parameter named. -/
theorem csrRdReadsTheGlobalRegisters : Obligations.CsrRdReadsTheGlobalRegisters := by
  intro s reads
  have read {a v} (r : Csr) (ha : csrOf a = some r) (hv : csrValue r 0#8 s = some v) : reads a v :=
    exec_csrRd_of_value ha (fun _ => rfl) hv
  exact ⟨read .status rfl rfl, read .srate rfl rfl, read .gencap rfl rfl,
    read .ntracks rfl rfl, read .framelen rfl rfl,
    fun h => read .units rfl (congrArg some (unitsWord_of_cfgValid h)),
    read .fftn rfl rfl, read .fscale rfl rfl⟩

/-- Settles O58: each address of R43 to R48 is its register's, which reads a field of the unit that the
index names. -/
theorem csrRdReadsTheUnitRegisters : Obligations.CsrRdReadsTheUnitRegisters := by
  intro s n reads
  have read {a v} (r : Csr) (ha : csrOf a = some r) (hr : r.unit ≠ none) (hv : csrValue r n s = some v) :
      reads a v := exec_csrRd_of_value ha (fun h => absurd h hr) hv
  refine ⟨fun g hi hu => ?_, fun d cap hi hd hcap => ?_, fun r hi hu => ?_, fun f hi hu => ?_,
    fun l hi hu => ?_, fun a hi hu => ?_⟩
  · have hv (f : _ → Word) := map_unitAt hi hu f
    refine ⟨read .genKind rfl nofun ((hv _).trans ?_), read .genFreq rfl nofun (hv _),
      read .genPh rfl nofun (hv _)⟩
    cases g.kind <;> rfl
  · exact ⟨read .dlyCap rfl nofun (map_unitAt hi hcap _),
      read .dlyWp rfl nofun (map_unitAt hi hd _)⟩
  · have hv (f : _ → Word) := map_unitAt hi hu f
    exact ⟨read .rvbIdx rfl nofun (hv _),
      read (.rvbShadow .wet) rfl nofun (hv _), read (.rvbShadow .decay) rfl nofun (hv _),
      read (.rvbShadow .room) rfl nofun (hv _), read (.rvbShadow .cutoff) rfl nofun (hv _),
      read (.rvbShadow .predelay) rfl nofun (hv _),
      read (.rvbActive .wet) rfl nofun (hv _), read (.rvbActive .decay) rfl nofun (hv _),
      read (.rvbActive .room) rfl nofun (hv _), read (.rvbActive .cutoff) rfl nofun (hv _),
      read (.rvbActive .predelay) rfl nofun (hv _)⟩
  · have hv (f : _ → Word) := map_unitAt hi hu f
    exact ⟨read .fftFlags rfl nofun (hv _), read .fftSidx rfl nofun (hv _),
      read .fftOidx rfl nofun (hv _)⟩
  · have hv (f : _ → Word) := map_unitAt hi hu f
    exact ⟨read (.line .ntot) rfl nofun (hv _), read (.line .rem) rfl nofun (hv _),
      read (.line .start) rfl nofun (hv _), read (.line .stop) rfl nofun (hv _)⟩
  · have hv (f : _ → Word) := map_unitAt hi hu f
    refine ⟨read .adsrPh rfl nofun ((hv _).trans ?_),
      read (.adsrAtk .ntot) rfl nofun (hv _), read (.adsrAtk .rem) rfl nofun (hv _),
      read (.adsrAtk .start) rfl nofun (hv _), read (.adsrAtk .stop) rfl nofun (hv _),
      read (.adsrRel .ntot) rfl nofun (hv _), read (.adsrRel .rem) rfl nofun (hv _),
      read (.adsrRel .start) rfl nofun (hv _), read (.adsrRel .stop) rfl nofun (hv _)⟩
    cases a.ph <;> rfl

end Sys2Proof.Machine
end

section
/-! The reading commands (R64): their answer is all that they leave in the state. -/

namespace Sys2Proof.Machine

variable {s t : State}

/-- The state `t` is `s` but for an answer: STATUS, the responses and the draws. -/
def State.AnswersOnly (s t : State) : Prop :=
  { t with status := s.status, responses := s.responses, draws := s.draws } = s

theorem State.AnswersOnly.of_reply {c : RespCode} {d : List Word} (e : reply c d s = .next t) :
    s.AnswersOnly t := by
  rw [reply_eq_next.mp e]; rfl

theorem State.AnswersOnly.of_raise {c : RespCode} {d : List Word} (e : raise c d s = .next t) :
    s.AnswersOnly t := by
  rw [raise_eq_next.mp e]; rfl

theorem execGenRd_answersOnly {h : BitVec 8} (e : execGenRd h s = .next t) : s.AnswersOnly t := by
  unfold execGenRd at e
  split at e
  · exact .of_raise e
  · exact .of_reply e

theorem execOutRd_answersOnly {k : BitVec 11} (e : execOutRd k s = .next t) : s.AnswersOnly t := by
  unfold execOutRd at e
  split at e
  · exact .of_reply e
  · exact .of_raise e

theorem execCsrRd_answersOnly {a : BitVec 12} {n : BitVec 8} (e : execCsrRd a n s = .next t) :
    s.AnswersOnly t := by
  unfold execCsrRd at e
  split at e
  · exact .of_raise e
  · split at e
    · exact .of_raise e
    · split at e
      · exact .of_raise e
      · exact .of_reply e

/-- CSR_RD, GEN_RD, OUT_RD, MIX and CLAMP answer and do nothing else. -/
theorem exec_answersOnly {i : Instr} (e : exec i s = .next t)
    (hi : i.opc = 0x70#8 ∨ i.opc = 0x04#8 ∨ i.opc = 0x62#8 ∨ i.opc = 0x50#8 ∨ i.opc = 0x51#8) :
    s.AnswersOnly t := by
  cases i with
  | csrRd => exact execCsrRd_answersOnly e
  | genRd => exact execGenRd_answersOnly e
  | outRd => exact execOutRd_answersOnly e
  | mix => exact .of_reply e
  | clamp => exact .of_reply e
  | _ => simp [Instr.opc] at hi

/-- MIX and CLAMP have no error to record. -/
theorem exec_mix_clamp_status {i : Instr} (e : exec i s = .next t)
    (hi : i.opc = 0x50#8 ∨ i.opc = 0x51#8) : t.status = s.status := by
  cases i with
  | mix => rw [reply_eq_next.mp e, State.respond_status]
  | clamp => rw [reply_eq_next.mp e, State.respond_status]
  | _ => simp [Instr.opc] at hi

/-- Settles O23: the reading commands only answer, and MIX and CLAMP always answer `OK`. -/
theorem readsHaveNoSideEffects : Obligations.ReadsHaveNoSideEffects :=
  fun _ _ _ e hi => ⟨exec_answersOnly e hi, exec_mix_clamp_status e⟩

end Sys2Proof.Machine
end

section
/-! The sink's read port (R61, R63, R69): which reads it takes, and the bytes they return. -/

namespace Sys2Proof.Machine

/-! ## Bytes read little-endian -/

theorem Memory.readBytes_one (m : Memory) (a : Nat) : m.readBytes a 1 = [m.read a] := rfl

theorem Memory.readBytes_add (m : Memory) (a n k : Nat) :
    m.readBytes a (n + k) = m.readBytes a n ++ m.readBytes (a + n) k := by
  simp [Memory.readBytes, List.range_add, Function.comp_def, Nat.add_assoc]

theorem littleEndian_singleton (b : Byte) : littleEndian [b] = b.toNat := by simp [littleEndian]

theorem littleEndian_append (bs cs : List Byte) :
    littleEndian (bs ++ cs) = littleEndian bs + 2 ^ (8 * bs.length) * littleEndian cs := by
  induction bs with
  | nil => simp [littleEndian]
  | cons b bs ih =>
    rw [List.cons_append, littleEndian, littleEndian, ih, List.length_cons, Nat.mul_succ, Nat.pow_add]
    ring

/-- The bytes of `x`, then those of `y`, read as `y ++ x`: the later bytes are the upper bits. -/
theorem littleEndian_append_eq {w v : Nat} {x : BitVec w} {y : BitVec v} {bs cs : List Byte}
    (hw : 8 * bs.length = w) (hx : littleEndian bs = x.toNat) (hy : littleEndian cs = y.toNat) :
    littleEndian (bs ++ cs) = (y ++ x).toNat := by
  rw [littleEndian_append, hw, hx, hy, BitVec.toNat_append,
    ← Nat.shiftLeft_add_eq_or_of_lt (BitVec.isLt x), Nat.shiftLeft_eq, Nat.add_comm, Nat.mul_comm]

/-- Sample `k` of channel `c` is the two bytes at `4k + 2c` (R61). -/
theorem littleEndian_readBytes_sample (m : Memory) (k c : Nat) :
    littleEndian (m.readBytes (4 * k + 2 * c) 2) = (m.sample k c).toNat := by
  rw [m.readBytes_add _ 1 1, m.readBytes_one, m.readBytes_one]
  exact littleEndian_append_eq rfl (littleEndian_singleton _) (littleEndian_singleton _)

/-- The four bytes at `4k` are the word OUT_RD packs (R263). -/
theorem littleEndian_readBytes_word (m : Memory) (k : Nat) :
    littleEndian (m.readBytes (4 * k) 4) = (m.sample k 1 ++ m.sample k 0).toNat := by
  rw [m.readBytes_add _ 2 2]
  exact littleEndian_append_eq rfl (littleEndian_readBytes_sample m k 0)
    (littleEndian_readBytes_sample m k 1)

/-! ## The read port -/

variable {s t : State} {a n : Nat}

/-- A read of 1, 2 or 4 bytes inside the buffer passes the port's checks. -/
theorem sinkCheck_of_inside (hn : n = 1 ∨ n = 2 ∨ n = 4) (h : a + n ≤ 4 * s.cfg.frameLen) :
    sinkCheck s a n = none := by
  rw [sinkCheck, if_neg (not_not.mpr hn), if_neg (Nat.not_lt.mpr h)]

theorem sinkCheck_of_outside (hn : n = 1 ∨ n = 2 ∨ n = 4) (h : 4 * s.cfg.frameLen < a + n) :
    sinkCheck s a n = some .sinkOutsideBuffer := by
  rw [sinkCheck, if_neg (not_not.mpr hn), if_pos h]

/-- A read that nothing overlaps returns the buffer's bytes where POISON is clear. -/
theorem sinkBytes_of_clean (hp : s.poison = false) : sinkBytes s a n false = s.mem.readBytes a n := by
  simp [sinkBytes, hp]

theorem sinkRead_of_inside (hp : s.poison = false) (hn : n = 1 ∨ n = 2 ∨ n = 4)
    (h : a + n ≤ 4 * s.cfg.frameLen) : s.sinkRead a n = .ok (s.mem.readBytes a n) := by
  rw [State.sinkRead, sinkCheck_of_inside hn h, ← sinkBytes_of_clean hp]

/-- A sink read that begins is recorded after the outstanding ones, and changes nothing else. -/
theorem sinkBegin_eq_ok (e : s.sinkBegin a n = .ok t) :
    t = { s with sinkReads := s.sinkReads ++ [⟨a, n, false⟩] } := by
  unfold State.sinkBegin at e
  split at e
  · cases e
  · exact (Except.ok.inj e).symm

/-- The oldest outstanding sink read is the one that ends. -/
theorem sinkEnd_of_cons {r : SinkRead} {rs : List SinkRead} (h : s.sinkReads = r :: rs) :
    s.sinkEnd = .ok (sinkBytes s r.addr r.size r.raced,
      { s with sinkReads := rs, draws := s.draws + (if r.raced then 1 else 0) }) := by
  rw [State.sinkEnd, h]

/-- MIX_PERIOD overlaps every outstanding sink read (R69). -/
theorem exec_mixPeriod_sinkReads (e : exec .mixPeriod s = .next t) :
    t.sinkReads = s.sinkReads.map fun r => { r with raced := true } := by
  simp only [exec, execMixPeriod] at e
  split at e
  · rw [raise_eq_next.mp e]; simp
  · rw [reply_eq_next.mp e]; simp

/-- Settles O55: a sample's two bytes and a word's four lie inside the buffer, so the port returns them. -/
theorem sinkReadsTheFrameLittleEndian : Obligations.SinkReadsTheFrameLittleEndian := by
  intro s k ch hp hk hch
  exact ⟨⟨_, sinkRead_of_inside hp (by decide) (by omega), littleEndian_readBytes_sample s.mem k ch⟩,
    ⟨_, sinkRead_of_inside hp (by decide) (by omega), littleEndian_readBytes_word s.mem k⟩⟩

/-- Settles O56: the port checks a read as it begins, and whether MIX_PERIOD overlapped it as it ends. -/
theorem sinkReadsStuckOrRaced : Obligations.SinkReadsStuckOrRaced := by
  refine ⟨fun s a n hn h => ?_, fun s s' t a n hs hb e => ?_, fun s s' a n hs hp hb => ?_⟩
  · have hc := sinkCheck_of_outside hn h
    exact ⟨by rw [State.sinkRead, hc], by rw [State.sinkBegin, hc]⟩
  · have ht : t.sinkReads = [⟨a, n, true⟩] := by
      rw [exec_mixPeriod_sinkReads e, sinkBegin_eq_ok hb, hs]; rfl
    exact ⟨_, sinkEnd_of_cons ht⟩
  · obtain rfl := sinkBegin_eq_ok hb
    refine (sinkEnd_of_cons (r := ⟨a, n, false⟩) (rs := []) (by rw [hs]; rfl)).trans ?_
    rw [← hs]
    exact congrArg (fun bs => Except.ok (bs, s)) (sinkBytes_of_clean hp)

end Sys2Proof.Machine
end

section
/-! The command word and its fields (R80, R82): the decoder and the encoder are inverse to each other. -/

namespace Sys2Proof

/-! ## Packing the fields -/

theorem fieldOpc_packW0 (len : BitVec 4) (imm : BitVec 12) (idx opc : BitVec 8) :
    fieldOpc (packW0 len imm idx opc) = opc := BitVec.extractLsb'_append_eq_right

theorem fieldIdx_packW0 (len : BitVec 4) (imm : BitVec 12) (idx opc : BitVec 8) :
    fieldIdx (packW0 len imm idx opc) = idx := by
  unfold fieldIdx packW0
  rw [BitVec.extractLsb'_append_eq_of_le (by decide)]
  exact BitVec.extractLsb'_append_eq_right

theorem fieldImm_packW0 (len : BitVec 4) (imm : BitVec 12) (idx opc : BitVec 8) :
    fieldImm (packW0 len imm idx opc) = imm := by
  unfold fieldImm packW0
  rw [BitVec.extractLsb'_append_eq_of_le (by decide), BitVec.extractLsb'_append_eq_of_le (by decide)]
  exact BitVec.extractLsb'_append_eq_right

/-- The four fields are all of the command word. -/
theorem packW0_fields (w : Word) : packW0 (fieldLen w) (fieldImm w) (fieldIdx w) (fieldOpc w) = w := by
  have join {n k j : Nat} : w.extractLsb' (k + j) n ++ w.extractLsb' k j = w.extractLsb' k (n + j) :=
    BitVec.extractLsb'_append_extractLsb'_eq_extractLsb' rfl
  unfold packW0 fieldLen fieldImm fieldIdx fieldOpc
  rw [join (n := 4) (k := 16) (j := 12), join (n := 16) (k := 8) (j := 8), join (n := 24) (k := 0) (j := 8)]
  exact BitVec.extractLsb'_eq_self

/-! ## The sub-fields of `IMM` -/

/-- No reserved bit is set exactly where masking them off changes nothing. -/
theorem and_not_eq_zero_iff {n : Nat} {x m : BitVec n} : x &&& ~~~m = 0#n ↔ x &&& m = x := by
  constructor
  · intro h
    calc x &&& m = (x &&& m) ||| (x &&& ~~~m) := by rw [h, BitVec.or_zero]
      _ = x := by rw [← BitVec.and_or_distrib_left, BitVec.or_not_self, BitVec.and_allOnes]
  · intro h
    rw [← h, BitVec.and_assoc, BitVec.and_not_self]
    exact BitVec.and_zero

/-- A sub-field at the low end, with zeros above it, is the field masked to the sub-field. -/
theorem zero_append_extractLsb' {m n : Nat} (x : BitVec (m + n)) :
    0#m ++ x.extractLsb' 0 n = x &&& (0#m ++ BitVec.allOnes n) := by
  ext k hk
  by_cases h : k < n
  · simp [BitVec.getElem_append, h, BitVec.getLsbD_eq_getElem hk]
  · simp [BitVec.getElem_append, h]

theorem ofBool_getLsbD {n : Nat} (x : BitVec n) (k : Nat) :
    BitVec.ofBool (x.getLsbD k) = x.extractLsb' k 1 := by
  ext j hj
  obtain rfl : j = 0 := by omega
  simp

theorem segmentOf_bit (b : Bool) : (segmentOf b).bit = BitVec.ofBool b := by cases b <;> rfl

theorem channelOf_bit (b : Bool) : (channelOf b).bit = BitVec.ofBool b := by cases b <;> rfl

theorem getLsbD_zero_append_ofBool (n : Nat) (b : Bool) : (0#n ++ BitVec.ofBool b).getLsbD 0 = b := by
  rw [BitVec.getLsbD_append]
  simp

theorem segmentOf_getLsbD (seg : Segment) : segmentOf ((0#11 ++ seg.bit).getLsbD 0) = seg := by
  cases seg <;> decide

theorem channelOf_getLsbD (ch : Channel) (k : BitVec 11) :
    channelOf ((ch.bit ++ k).getLsbD 11) = ch := by
  rw [BitVec.getLsbD_append]
  cases ch <;> rfl

/-! ## The command that a row's fields build -/

/-- The command built from a row's fields has the row's opcode and these operands, and keeps of `IDX` and
`IMM` exactly the bits the row lists. -/
def OpRow.Builds (r : OpRow) (idx : BitVec 8) (imm : BitVec 12) (ops : List Word) : Prop :=
  ∃ i : Instr, buildInstr r.opc idx imm ops = some i ∧ i.opc = r.opc ∧ i.operands = ops ∧
    i.idx = (if r.idxZero then 0#8 else idx) ∧ i.imm = imm &&& r.immMask

/-- Every row of the map builds a command from operand words as many as its `LEN`. -/
theorem opTable_builds (idx : BitVec 8) (imm : BitVec 12) :
    ∀ r ∈ opTable, ∀ ops : List Word, ops.length = r.len.toNat → r.Builds idx imm ops := by
  have keepsNone : 0#12 = imm &&& 0x000#12 := BitVec.and_zero.symm
  have keepsAll : imm = imm &&& 0xFFF#12 := BitVec.and_allOnes.symm
  have keepsType : 0#10 ++ imm.extractLsb' 0 2 = imm &&& 0x003#12 :=
    zero_append_extractLsb' (m := 10) (n := 2) imm
  have keepsK : 0#1 ++ imm.extractLsb' 0 11 = imm &&& 0x7FF#12 :=
    zero_append_extractLsb' (m := 1) (n := 11) imm
  have keepsBit : 0#11 ++ BitVec.ofBool (imm.getLsbD 0) = imm &&& 0x001#12 := by
    rw [ofBool_getLsbD]; exact zero_append_extractLsb' (m := 11) (n := 1) imm
  have keepsSeg : 0#11 ++ (segmentOf (imm.getLsbD 0)).bit = imm &&& 0x001#12 := by
    rw [segmentOf_bit, keepsBit]
  have keepsChK : (channelOf (imm.getLsbD 11)).bit ++ imm.extractLsb' 0 11 = imm &&& 0xFFF#12 := by
    rw [channelOf_bit, ofBool_getLsbD]
    exact (BitVec.extractLsb'_append_extractLsb'_eq_extractLsb' rfl).trans
      (BitVec.extractLsb'_eq_self.trans keepsAll)
  simp only [opTable, List.cons_append, List.nil_append, List.forall_mem_cons]
  refine ⟨?genReg, ?genRel, ?genAdv, ?genRd, ?dlyApply, ?rvbCfg, ?rvbApply, ?fftIn, ?fftOut, ?fftShift,
    ?lineSet, ?lineRst, ?lineAdv, ?adsrSet, ?adsrRst, ?adsrAdv, ?mix, ?clamp, ?trkWr, ?mixPeriod,
    ?outRd, ?csrRd, ?csrWr, List.forall_mem_nil _⟩
  case genReg => exact fun | [_], _ => ⟨_, rfl, rfl, rfl, rfl, keepsType⟩
  case adsrSet => exact fun | [_, _, _], _ => ⟨_, rfl, rfl, rfl, rfl, keepsSeg⟩
  case adsrAdv => exact fun | [], _ => ⟨_, rfl, rfl, rfl, rfl, keepsBit⟩
  case trkWr => exact fun | [_], _ => ⟨_, rfl, rfl, rfl, rfl, keepsChK⟩
  case outRd => exact fun | [], _ => ⟨_, rfl, rfl, rfl, rfl, keepsK⟩
  case csrRd => exact fun | [], _ => ⟨_, rfl, rfl, rfl, rfl, keepsAll⟩
  case csrWr => exact fun | [_], _ => ⟨_, rfl, rfl, rfl, rfl, keepsAll⟩
  case rvbCfg => exact fun | [_, _, _, _, _], _ => ⟨_, rfl, rfl, rfl, rfl, keepsNone⟩
  case genRel | genAdv | genRd | fftOut | lineRst | lineAdv | adsrRst | mixPeriod =>
    exact fun | [], _ => ⟨_, rfl, rfl, rfl, rfl, keepsNone⟩
  case rvbApply | fftIn | fftShift =>
    exact fun | [_], _ => ⟨_, rfl, rfl, rfl, rfl, keepsNone⟩
  case dlyApply | lineSet | mix | clamp =>
    exact fun | [_, _, _], _ => ⟨_, rfl, rfl, rfl, rfl, keepsNone⟩

/-- A command is built from its own fields. -/
theorem buildInstr_self (i : Instr) : buildInstr i.opc i.idx i.imm i.operands = some i := by
  have low {m n : Nat} {x : BitVec n} : (0#m ++ x).extractLsb' 0 n = x := BitVec.extractLsb'_append_eq_right
  cases i with
  | genReg type f => exact congrArg (fun t => some (Instr.genReg t f)) low
  | adsrSet e seg a b c => exact congrArg (fun g => some (Instr.adsrSet e g a b c)) (segmentOf_getLsbD seg)
  | adsrAdv e trig => exact congrArg (fun g => some (Instr.adsrAdv e g)) (getLsbD_zero_append_ofBool 11 trig)
  | trkWr t k ch v =>
    exact congrArg₂ (fun k c => some (Instr.trkWr t k c v)) BitVec.extractLsb'_append_eq_right
      (channelOf_getLsbD ch k)
  | outRd k => exact congrArg (fun k => some (Instr.outRd k)) low
  | _ => rfl

/-- Every command has a row, with as many operands as the command. -/
theorem opRow_opc (i : Instr) : ∃ r, opRow i.opc = some r ∧ i.operands.length = r.len.toNat := by
  cases i <;> exact ⟨_, rfl, rfl⟩

theorem opRow_eq_some {opc : BitVec 8} {r : OpRow} (h : opRow opc = some r) : r ∈ opTable ∧ r.opc = opc :=
  ⟨List.mem_of_find?_eq_some h, by simpa using List.find?_some h⟩

/-- A command meets its own row: it has the row's operands, and sets no bit that the row does not list. -/
theorem exists_opRow (i : Instr) : ∃ r, opRow i.opc = some r ∧ i.operands.length = r.len.toNat ∧
    (r.idxZero = true → i.idx = 0#8) ∧ i.imm &&& ~~~r.immMask = 0#12 := by
  obtain ⟨r, hr, hlen⟩ := opRow_opc i
  obtain ⟨hmem, hopc⟩ := opRow_eq_some hr
  obtain ⟨j, hj, -, -, hidx, himm⟩ := opTable_builds i.idx i.imm r hmem i.operands hlen
  rw [hopc, buildInstr_self] at hj
  obtain rfl := Option.some.inj hj
  exact ⟨r, hr, hlen, fun hz => by rw [hidx, if_pos hz], and_not_eq_zero_iff.mpr himm.symm⟩

/-! ## The decoder -/

/-- What the decoder checks, in the order of R85. -/
theorem decode_eq_ok_iff {w0 : Word} {ops : List Word} {i : Instr} :
    decode w0 ops = .ok i ↔ ∃ r, opRow (fieldOpc w0) = some r ∧
      fieldLen w0 = r.len ∧ ops.length = r.len.toNat ∧
      (r.idxZero = true → fieldIdx w0 = 0#8) ∧ fieldImm w0 &&& ~~~r.immMask = 0#12 ∧
      buildInstr r.opc (fieldIdx w0) (fieldImm w0) ops = some i := by
  unfold decode
  cases opRow (fieldOpc w0) with
  | none => simp
  | some r =>
    simp only [Option.some.injEq, exists_eq_left']
    split_ifs with hlen hres
    · refine iff_of_false nofun ?_
      rintro ⟨h, h', -⟩
      exact hlen.elim (· h) (· h')
    · refine iff_of_false nofun ?_
      rintro ⟨-, -, h, h', -⟩
      exact hres.elim (fun hz => hz.2 (h hz.1)) (· h')
    · obtain ⟨hlen, hops⟩ := not_or.mp hlen
      obtain ⟨hzero, hmask⟩ := not_or.mp hres
      have hidx : r.idxZero = true → fieldIdx w0 = 0#8 := fun hz => not_not.mp fun h => hzero ⟨hz, h⟩
      cases buildInstr r.opc (fieldIdx w0) (fieldImm w0) ops <;> simp_all

/-- The words of a command decode to it. -/
theorem decode_encode (i : Instr) : decode i.w0 i.operands = .ok i := by
  obtain ⟨r, hr, hlen, hzero, hmask⟩ := exists_opRow i
  have hopc := (opRow_eq_some hr).2
  rw [decode_eq_ok_iff, Instr.w0, fieldOpc_packW0, Laws.Framing.fieldLen_packW0, fieldIdx_packW0,
    fieldImm_packW0]
  refine ⟨r, hr, ?_, hlen, hzero, hmask, hopc ▸ buildInstr_self i⟩
  rw [hlen, BitVec.ofNat_toNat, BitVec.setWidth_eq]

/-- The words of a command are framed as that command, whatever words follow (R87). -/
theorem frame_encode (i : Instr) (rest : List Word) :
    frame (encode i ++ rest) = .command i.w0 i.operands rest := by
  obtain ⟨r, -, hlen, -⟩ := exists_opRow i
  exact Laws.Framing.statement_of_length (hlen ▸ r.len.isLt) rest

theorem decodeWords_encode (i : Instr) : decodeWords (encode i) = some i := by
  have hf := frame_encode i []
  rw [List.append_nil] at hf
  simp only [decodeWords, hf, decode_encode]

/-- Words that decode are the words of the command they decode to. -/
theorem encode_of_decode {w0 : Word} {ops : List Word} {i : Instr} (h : decode w0 ops = .ok i) :
    encode i = w0 :: ops := by
  obtain ⟨r, hr, hlen, hops, hzero, hmask, hi⟩ := decode_eq_ok_iff.mp h
  obtain ⟨hmem, hopc⟩ := opRow_eq_some hr
  obtain ⟨j, hj, jopc, jops, jidx, jimm⟩ := opTable_builds (fieldIdx w0) (fieldImm w0) r hmem ops hops
  obtain rfl := Option.some.inj (hi.symm.trans hj)
  have jidx : i.idx = fieldIdx w0 := by
    rw [jidx, ite_eq_right_iff]
    exact fun hz => (hzero hz).symm
  have jlen : BitVec.ofNat 4 ops.length = fieldLen w0 := by
    rw [hops, hlen, BitVec.ofNat_toNat, BitVec.setWidth_eq]
  rw [encode, Instr.w0, jops, jlen, jimm, and_not_eq_zero_iff.mp hmask, jidx, jopc, hopc, packW0_fields]

/-- A command that decodes has the opcode of its command word. -/
theorem opc_of_decode {w0 : Word} {ops : List Word} {i : Instr} (h : decode w0 ops = .ok i) :
    i.opc = fieldOpc w0 := by
  obtain ⟨hw, -⟩ := List.cons.inj (encode_of_decode h)
  rw [← hw, Instr.w0, fieldOpc_packW0]

/-- Settles O5: a command meets its row of the map, and is built from its own fields. -/
theorem decodeOfEncodeIsTheCommand : Obligations.DecodeOfEncodeIsTheCommand :=
  fun i rest => ⟨frame_encode i rest, decode_encode i, decodeWords_encode i⟩

/-- Settles O6: the command built keeps every bit that its row lists, and the decoder lets no other
bit pass. -/
theorem encodeOfDecodeIsTheWords : Obligations.EncodeOfDecodeIsTheWords :=
  fun _ _ _ h => encode_of_decode h

/-- Settles O7: the words of each example are those of the command named. -/
theorem encodingExamplesDecode : Obligations.EncodingExamplesDecode := by
  have decodes {ws : List Word} (i : Instr) (h : encode i = ws) : decodeWords ws = some i :=
    h ▸ decodeWords_encode i
  exact ⟨decodes _ rfl, decodes _ rfl, decodes _ rfl, decodes _ rfl, decodes _ rfl, decodes _ rfl,
    decodes _ rfl, decodes _ rfl, decodes _ rfl, decodes _ rfl⟩

end Sys2Proof
end

section
/-! What a step does with words that are no command: they are answered `ILLEGAL`, or have not all arrived
(R85 to R87). -/

namespace Sys2Proof.Machine

variable {s : State} {w0 : Word} {ops rest : List Word}

/-! ## Framing -/

/-- A command word with its `LEN` operand words is a whole command (R87). -/
theorem frame_of_length (h : ops.length = (fieldLen w0).toNat) :
    frame (w0 :: (ops ++ rest)) = .command w0 ops rest := by
  simp [frame, ← h]

theorem frame_of_length_lt (h : rest.length < (fieldLen w0).toNat) : frame (w0 :: rest) = .pending :=
  if_neg (Nat.not_le.mpr h)

theorem step_of_command (hc : cfgValid s.cfg = true) (hs : s.stream = w0 :: (ops ++ rest))
    (hl : ops.length = (fieldLen w0).toNat) : step s = runCommand w0 ops (s.consume rest) := by
  simp only [step, hc, if_true, hs, frame_of_length hl]

/-! ## Words that do not decode -/

/-- A command that does not decode is answered `ILLEGAL` with its opcode's data words all 0 (R83, R85). -/
theorem runCommand_of_error {e : DecodeError} (h : decode w0 ops = .error e) :
    runCommand w0 ops s = .next (State.respond .illegal (List.replicate (rlenOf (fieldOpc w0)) 0#32)
      { s with status := s.status ||| 0x01#32 }) := by
  simp only [runCommand, h]
  rfl

theorem rlenOf_of_opRow {opc : BitVec 8} {r : OpRow} (h : opRow opc = some r) : rlenOf opc = r.rlen := by
  simp only [rlenOf, h]

theorem rlenOf_of_opRow_none {opc : BitVec 8} (h : opRow opc = none) : rlenOf opc = 0 := by
  simp only [rlenOf, h]

theorem decode_of_opRow_none (h : opRow (fieldOpc w0) = none) : decode w0 ops = .error .unknownOpcode := by
  simp only [decode, h]

/-- A command whose `LEN` is not its row's, or that sets a bit its row does not list, does not decode. -/
theorem exists_decode_eq_error {r : OpRow} (hr : opRow (fieldOpc w0) = some r)
    (h : fieldLen w0 ≠ r.len ∨ (r.idxZero = true ∧ fieldIdx w0 ≠ 0#8) ∨
      fieldImm w0 &&& ~~~r.immMask ≠ 0#12) : ∃ e, decode w0 ops = .error e := by
  cases hd : decode w0 ops with
  | error e => exact ⟨e, rfl⟩
  | ok i =>
    obtain ⟨r', hr', hlen, -, hzero, hmask, -⟩ := decode_eq_ok_iff.mp hd
    obtain rfl := Option.some.inj (hr.symm.trans hr')
    obtain h | ⟨hz, h⟩ | h := h
    · exact absurd hlen h
    · exact absurd (hzero hz) h
    · exact absurd hmask h

/-- Settles O8: the opcodes are counted, and the decoder looks for the row first. -/
theorem unassignedOpcodesAreIllegal : Obligations.UnassignedOpcodesAreIllegal := by
  refine ⟨by decide +kernel, fun s w0 ops h => ?_⟩
  have hd := decode_of_opRow_none (ops := ops) h
  refine ⟨hd, ?_⟩
  rw [runCommand_of_error hd, rlenOf_of_opRow_none h]
  rfl

/-- Settles O9: such a command does not decode. -/
theorem wrongLengthOrReservedBitIsIllegal : Obligations.WrongLengthOrReservedBitIsIllegal := by
  intro s w0 ops r hr h
  obtain ⟨e, he⟩ := exists_decode_eq_error (ops := ops) hr h
  rw [runCommand_of_error he, rlenOf_of_opRow hr]

/-- Settles O11: the step takes the whole command, and answers it as one that does not decode. -/
theorem stepAnswersIllegalWhereDecodingFails : Obligations.StepAnswersIllegalWhereDecodingFails := by
  intro s w0 ops rest e hc hs hl he
  rw [step_of_command hc hs hl, runCommand_of_error he]
  rfl

/-- Settles O12: the step looks at what stands at the front of the stream. -/
theorem incompleteCommandsAreStuck : Obligations.IncompleteCommandsAreStuck := by
  refine ⟨fun s hc hs => ?_, fun s w0 rest hc hs hl => ?_⟩
  · simp only [step, hc, if_true, hs, frame]
  · simp only [step, hc, if_true, hs, frame_of_length_lt hl]

end Sys2Proof.Machine
end

section
/-! Which registers are mapped, global and writable (R41 to R50), and so which commands are well formed (R85
step 4). -/

namespace Sys2Proof.Machine

variable {a : BitVec 12} {n : BitVec 8} {r : Csr}

/-! ## The register map -/

/-- The mapped addresses of R41 to R48, as ranges. -/
def csrRanges : List Nat :=
  List.range' 0x000 8 ++ List.range' 0x010 3 ++ List.range' 0x100 2 ++ List.range' 0x200 6 ++
    List.range' 0x209 5 ++ List.range' 0x300 3 ++ List.range' 0x400 4 ++ List.range' 0x480 9

theorem mem_csrRanges {m : Nat} : m ∈ csrRanges ↔
    m ≤ 0x007 ∨ (0x010 ≤ m ∧ m ≤ 0x012) ∨ (0x100 ≤ m ∧ m ≤ 0x101) ∨ (0x200 ≤ m ∧ m ≤ 0x205) ∨
    (0x209 ≤ m ∧ m ≤ 0x20D) ∨ (0x300 ≤ m ∧ m ≤ 0x302) ∨ (0x400 ≤ m ∧ m ≤ 0x403) ∨
    (0x480 ≤ m ∧ m ≤ 0x488) := by
  simp only [csrRanges, List.mem_append, List.mem_range'_1]
  omega

theorem csrTable_addresses : csrTable.map Prod.fst = csrRanges := rfl

theorem mem_of_csrOf (h : csrOf a = some r) : (a.toNat, r) ∈ csrTable := by
  obtain ⟨l₁, l₂, hl, -⟩ := List.lookup_eq_some_iff.mp h
  simp [hl]

/-- An address is unmapped exactly where no row of the table has it (R49). -/
theorem csrOf_eq_none_iff : csrOf a = none ↔ a.toNat ∉ csrRanges := by
  rw [← csrTable_addresses]
  simp only [csrOf, List.lookup_eq_none_iff, bne_iff_ne, List.mem_map, not_exists, not_and]
  exact forall₂_congr fun p _ => ne_comm

theorem exists_csrOf (h : a.toNat ∈ csrRanges) : ∃ r, csrOf a = some r :=
  Option.ne_none_iff_exists'.mp fun hn => csrOf_eq_none_iff.mp hn h

/-- The global registers are those of 0x000 to 0x007 (R40). -/
theorem unit_eq_none_iff (h : csrOf a = some r) : r.unit = none ↔ a.toNat ≤ 0x007 := by
  have rows : ∀ p ∈ csrTable, p.2.unit = none ↔ p.1 ≤ 0x007 := by decide
  exact rows _ (mem_of_csrOf h)

/-- STATUS is the register at 0x000 (R41). -/
theorem csrOf_eq_status_iff : csrOf a = some .status ↔ a = 0x000#12 := by
  have rows : ∀ p ∈ csrTable, p.2 = .status → p.1 = 0x000 := by decide
  constructor
  · intro h
    exact BitVec.eq_of_toNat_eq (rows _ (mem_of_csrOf h) rfl)
  · rintro rfl
    rfl

/-! ## Well-formed commands -/

theorem wellFormed_genReg {t : BitVec 2} {f : B32} :
    WellFormed (.genReg t f) = true ↔ t = 1#2 ∨ t = 2#2 := by
  simp [WellFormed, WellFormed.type]

theorem wellFormed_csrRd : WellFormed (.csrRd a n) = true ↔
    ∃ r, csrOf a = some r ∧ (r.unit = none → n = 0#8) := by
  simp only [WellFormed, WellFormed.csrRead]
  cases csrOf a with
  | none => simp
  | some r => cases h : r.unit <;> simp [h]

/-- A read is well formed where the address is mapped, and global only with index 0. -/
theorem wellFormed_csrRd_iff_address : WellFormed (.csrRd a n) = true ↔
    a.toNat ∈ csrRanges ∧ (a.toNat ≤ 0x007 → n = 0#8) := by
  rw [wellFormed_csrRd]
  constructor
  · rintro ⟨r, hr, hn⟩
    have ha : a.toNat ∈ csrRanges := by
      by_contra h
      cases hr.symm.trans (csrOf_eq_none_iff.mpr h)
    exact ⟨ha, fun h => hn ((unit_eq_none_iff hr).mpr h)⟩
  · rintro ⟨ha, hn⟩
    obtain ⟨r, hr⟩ := exists_csrOf ha
    exact ⟨r, hr, fun h => hn ((unit_eq_none_iff hr).mp h)⟩

theorem wellFormed_csrWr {v : Word} : WellFormed (.csrWr a n v) = true ↔ a = 0x000#12 ∧ n = 0#8 := by
  simp [WellFormed, WellFormed.csrWrite, csrOf_eq_status_iff]

end Sys2Proof.Machine
end

section
/-! The response of every command (R83): its data words are as many as its opcode's `RLEN`, and its status
`ILLEGAL` exactly for an ill-formed command. -/

namespace Sys2Proof.Machine

variable {s t w : State} {i : Instr} {m : Nat}

/-! ## One response -/

/-- The state `t` has the responses of `s` and one more, of status `c` and with `m` data words. -/
def State.Responds (s : State) (c : RespCode) (m : Nat) (t : State) : Prop :=
  ∃ d : List Word, t.responses = s.responses ++ [⟨c, d⟩] ∧ d.length = m

theorem State.Responds.of_reply {c : RespCode} {d : List Word} (e : reply c d w = .next t)
    (hw : w.responses = s.responses) (hd : d.length = m) : s.Responds c m t :=
  ⟨w.replyData d, by rw [reply_eq_next.mp e, State.respond_responses, hw],
    (replyData_length d).trans hd⟩

theorem State.Responds.of_illegal (e : raiseIllegal m s = .next t) : s.Responds .illegal m t :=
  .of_reply e (State.orStatus_responses ..) List.length_replicate

/-! ## The response of a well-formed command -/

/-- The state `t` has one response more than `s`, not `ILLEGAL` and with `m` data words. -/
def State.RespondsLegally (s : State) (m : Nat) (t : State) : Prop :=
  ∃ c : RespCode, c ≠ .illegal ∧ s.Responds c m t

namespace State.RespondsLegally

theorem of_ok {d : List Word} (e : reply .ok d w = .next t) (hw : w.responses = s.responses)
    (hd : d.length = m) : s.RespondsLegally m t :=
  ⟨.ok, by decide, .of_reply e hw hd⟩

theorem of_raise {c : RespCode} {d : List Word} (e : raise c d w = .next t) (hc : c ≠ .illegal)
    (hw : w.responses = s.responses) (hd : d.length = m) : s.RespondsLegally m t :=
  ⟨c, hc, .of_reply (w := w.orStatus (statusBit c)) e hw hd⟩

theorem of_badHandle (e : raiseBadHandle m s = .next t) : s.RespondsLegally m t :=
  of_raise e (by decide) rfl List.length_replicate

theorem of_precond {d : List Word} (e : replyPrecond d w = .next t) (hw : w.responses = s.responses)
    (hd : d.length = m) : s.RespondsLegally m t := by
  rw [replyPrecond_eq_next.mp e]
  exact ⟨.precond, by decide, .of_reply (t := w.respond .precond d) rfl hw hd⟩

end State.RespondsLegally

open State.RespondsLegally

theorem execGenReg_responds {type : BitVec 2} {freq : B32} (hi : WellFormed (.genReg type freq) = true)
    (e : execGenReg type freq s = .next t) : s.RespondsLegally 1 t := by
  unfold execGenReg at e
  split at e
  · next hk => obtain rfl | rfl := wellFormed_genReg.mp hi <;> cases hk
  · split at e
    · exact of_raise e (by decide) rfl rfl
    · split at e
      · exact of_ok e rfl rfl
      · exact of_precond e rfl rfl

theorem execCsrRd_responds {a : BitVec 12} {n : BitVec 8} (hi : WellFormed (.csrRd a n) = true)
    (e : execCsrRd a n s = .next t) : s.RespondsLegally 1 t := by
  obtain ⟨r, hr, hn⟩ := wellFormed_csrRd.mp hi
  have hg : ¬ (r.unit = none ∧ n ≠ 0#8) := fun h => h.2 (hn h.1)
  simp only [execCsrRd, hr, if_neg hg] at e
  split at e
  · exact of_badHandle e
  · exact of_ok e rfl rfl

theorem execCsrWr_responds {a : BitVec 12} {n : BitVec 8} {v : Word}
    (hi : WellFormed (.csrWr a n v) = true) (e : execCsrWr a n v s = .next t) :
    s.RespondsLegally 0 t := by
  obtain ⟨rfl, rfl⟩ := wellFormed_csrWr.mp hi
  exact of_ok (w := s.clearStatus v) e rfl rfl

theorem execTrkWr_responds {n : BitVec 8} {k : BitVec 11} {ch : Channel} {v : B32}
    (e : execTrkWr n k ch v s = .next t) : s.RespondsLegally 0 t := by
  unfold execTrkWr at e
  split at e
  · exact of_badHandle e
  · split at e
    · exact of_ok e rfl rfl
    · exact of_badHandle e

theorem execMixPeriod_responds (e : execMixPeriod s = .next t) : s.RespondsLegally 0 t := by
  unfold execMixPeriod at e
  simp only at e
  split at e
  · exact of_raise e (by decide) (by simp) rfl
  · exact of_ok e (by simp) rfl

theorem execOutRd_responds {k : BitVec 11} (e : execOutRd k s = .next t) : s.RespondsLegally 1 t := by
  unfold execOutRd at e
  split at e
  · exact of_ok e rfl rfl
  · exact of_badHandle e

/-- A well-formed command responds with as many data words as its opcode's `RLEN`, and not `ILLEGAL`. -/
theorem exec_respondsLegally (hi : WellFormed i = true) (e : exec i s = .next t) :
    s.RespondsLegally (rlenOf i.opc) t := by
  cases i with
  | genReg => exact execGenReg_responds hi e
  | csrRd => exact execCsrRd_responds hi e
  | csrWr => exact execCsrWr_responds hi e
  | trkWr => exact execTrkWr_responds e
  | mixPeriod => exact execMixPeriod_responds e
  | outRd => exact execOutRd_responds e
  | genAdv | mix | clamp => exact of_ok e rfl rfl
  | genRel | genRd | rvbCfg | rvbApply | fftIn | fftOut | lineRst | lineAdv | adsrRst | adsrAdv =>
    simp only [exec, execGenRel, execGenRd, execRvbCfg, execRvbApply, execFftIn, execFftOut, execLineRst,
      execLineAdv, execAdsrRst, execAdsrAdv] at e
    split at e
    · exact of_badHandle e
    · exact of_ok e rfl rfl
  | dlyApply | fftShift | lineSet | adsrSet =>
    simp only [exec, execDlyApply, execFftShift, execLineSet, execAdsrSet] at e
    split at e
    · exact of_badHandle e
    · split at e
      · exact of_ok e rfl rfl
      · exact of_precond e rfl rfl

/-! ## The response of every command -/

/-- A command that fails step 4 of R85 is answered `ILLEGAL` with its opcode's data words all 0. -/
theorem exec_of_not_wellFormed (hi : ¬ WellFormed i = true) : exec i s = raiseIllegal (rlenOf i.opc) s := by
  cases i with
  | genReg type freq =>
    obtain ⟨h1, h2⟩ := not_or.mp (wellFormed_genReg.not.mp hi)
    simp only [exec, execGenReg, genKindOf, if_neg h1, if_neg h2]
    rfl
  | csrRd a n =>
    have hg {r : Csr} (hr : csrOf a = some r) : r.unit = none ∧ n ≠ 0#8 :=
      Classical.not_imp.mp fun h => hi (wellFormed_csrRd.mpr ⟨r, hr, h⟩)
    cases hr : csrOf a with
    | none => simp only [exec, execCsrRd, hr]; rfl
    | some r => simp only [exec, execCsrRd, hr, if_pos (hg hr)]; rfl
  | csrWr a n v =>
    rw [wellFormed_csrWr, ← csrOf_eq_status_iff] at hi
    exact if_neg hi
  | _ => exact absurd rfl hi

theorem exec_responds (e : exec i s = .next t) : ∃ c, s.Responds c (rlenOf i.opc) t := by
  by_cases hi : WellFormed i = true
  · obtain ⟨c, -, h⟩ := exec_respondsLegally hi e
    exact ⟨c, h⟩
  · exact ⟨_, .of_illegal (exec_of_not_wellFormed hi ▸ e)⟩

theorem runCommand_responds {w0 : Word} {ops : List Word} (e : runCommand w0 ops s = .next t) :
    ∃ c, s.Responds c (rlenOf (fieldOpc w0)) t := by
  unfold runCommand at e
  split at e
  · next hd => exact opc_of_decode hd ▸ exec_responds e
  · exact ⟨_, .of_illegal e⟩

/-- Settles O15: a step answers the command whose word is at the front of the stream. -/
theorem everyCommandAnswersOnce : Obligations.EveryCommandAnswersOnce := by
  intro s t w0 rest e hs
  obtain ⟨-, w0', ops, rest', hf, e⟩ := step_eq_next.mp e
  obtain ⟨rfl, -⟩ := List.cons.inj (hs.symm.trans (frame_eq_command hf).1)
  obtain ⟨c, d, ht, hd⟩ := runCommand_responds e
  exact ⟨⟨c, d⟩, c.word, ht, rfl, hd, by cases c <;> rfl, by cases c <;> rfl⟩

/-- Settles O24: the legal commands are the well-formed ones, and only the others are answered `ILLEGAL`. -/
theorem illegalExactlyForIllFormedCommands : Obligations.IllegalExactlyForIllFormedCommands := by
  unfold Obligations.IllegalExactlyForIllFormedCommands
  intro mapped legal
  have hmapped (a : BitVec 12) : a.toNat ∈ csrRanges ↔ mapped a := mem_csrRanges
  have hlegal (i : Instr) : WellFormed i = true ↔ legal i := by
    cases i with
    | genReg => exact wellFormed_genReg
    | csrRd a n => rw [wellFormed_csrRd_iff_address, hmapped]
    | csrWr => exact wellFormed_csrWr
    | _ => exact iff_of_true rfl trivial
  refine ⟨fun a => by rw [csrOf_eq_none_iff, hmapped], hlegal, fun i s hi => ?_,
    fun i s t r hi e ht => ?_⟩
  · exact exec_of_not_wellFormed ((hlegal i).not.mpr hi)
  · obtain ⟨c, hc, d, ht', -⟩ := exec_respondsLegally ((hlegal i).mpr hi) e
    obtain rfl : r = ⟨c, d⟩ := by simpa using ht.symm.trans ht'
    exact hc

end Sys2Proof.Machine
end

section
/-! Binary32 values from zero up to a bound (R9): what the arithmetic of the oscillators leaves of it. -/

namespace Sys2Proof.Machine

variable {x y : B32} {k m n : Nat}

/-- The value `x` is a zero of either sign, or a positive value whose pattern is at most `m`. -/
structure UpTo (m : Nat) (x : B32) : Prop where
  sign : signBit x = true → magBits x = 0
  le : magBits x ≤ m

namespace UpTo

theorem mono (hx : UpTo m x) (h : m ≤ n) : UpTo n x := ⟨hx.sign, hx.le.trans h⟩

theorem self (hx : UpTo m x) : UpTo (magBits x) x := ⟨hx.sign, le_rfl⟩

theorem mag_le (hx : UpTo m x) : mag x ≤ magOf m := magOf_strictMono.monotone hx.le

theorem not_isNaN (hx : UpTo m x) (hm : m ≤ 0x7F800000) : isNaN x = false :=
  decide_eq_false (not_lt.mpr (hx.le.trans hm))

theorem not_isInf (hx : UpTo m x) (hm : m < 0x7F800000) : isInf x = false :=
  beq_false_of_ne (hx.le.trans_lt hm).ne

theorem mag_eq_zero_of_sign (hx : UpTo m x) (h : signBit x = true) : mag x = 0 := by
  rw [mag_eq_magOf, hx.sign h]; rfl

theorem scaled_eq (hx : UpTo m x) : scaled x = mag x := by
  unfold scaled
  split
  · next h => rw [hx.mag_eq_zero_of_sign h]; rfl
  · rfl

theorem orderKey_eq (hx : UpTo m x) : orderKey x = magBits x := by
  unfold orderKey
  split
  · next h => rw [hx.sign h]; rfl
  · rfl

/-- Values from zero up are ordered as their patterns. -/
theorem fle_iff (hx : UpTo 0x7F800000 x) (hy : UpTo 0x7F800000 y) :
    fle x y = true ↔ magBits x ≤ magBits y := by
  simp [fle, hx.not_isNaN le_rfl, hy.not_isNaN le_rfl, hx.orderKey_eq, hy.orderKey_eq]

theorem flt_iff (hx : UpTo 0x7F800000 x) (hy : UpTo 0x7F800000 y) :
    flt x y = true ↔ magBits x < magBits y := by
  simp [flt, hx.not_isNaN le_rfl, hy.not_isNaN le_rfl, hx.orderKey_eq, hy.orderKey_eq]

end UpTo

theorem upTo_zero32 (m : Nat) : UpTo m zero32 := ⟨fun _ => rfl, Nat.zero_le _⟩

theorem upTo_one32 : UpTo 0x3F800000 one32 := ⟨by decide, by decide⟩

theorem upTo_twoPi32 : UpTo 0x40C90FDB twoPi32 := ⟨by decide, by decide⟩

/-- `0.0 ≤ x` (R9) admits the negative zero and infinity, and no NaN. -/
theorem fle_zero32_iff : fle zero32 x = true ↔ UpTo 0x7F800000 x := by
  constructor
  · intro h
    simp only [fle, Bool.and_eq_true, Bool.not_eq_true', decide_eq_true_eq] at h
    obtain ⟨⟨-, hn⟩, hk⟩ := h
    refine ⟨fun hs => ?_, not_lt.mp (of_decide_eq_false hn)⟩
    rw [(upTo_zero32 0).orderKey_eq, orderKey, if_pos hs] at hk
    change ((0 : Nat) : Int) ≤ _ at hk
    omega
  · exact fun h => ((upTo_zero32 _).fle_iff h).mpr (Nat.zero_le _)

/-- A pattern lies below the 24-bit multiples of its exponent's power of two. -/
theorem magOf_lt (m : Nat) : magOf m < 0x1000000 * 2 ^ (m / 0x800000 - 1) := by
  unfold magOf
  split
  · next h => rw [h]; omega
  · exact Nat.mul_lt_mul_of_pos_right (by omega) (Nat.two_pow_pos _)

/-- The remainder of two magnitudes is a magnitude, so R9's remainder is exact. -/
theorem exists_magOf_eq_mod (hn : 0 < magOf n) : ∃ k, magOf k = magOf m % magOf n := by
  rcases lt_or_ge m n with h | h
  · exact ⟨m, (Nat.mod_eq_of_lt (magOf_strictMono h)).symm⟩
  · have hdvd : 2 ^ (n / 0x800000 - 1) ∣ magOf m :=
      (pow_dvd_pow 2 (Nat.sub_le_sub_right (Nat.div_le_div_right h) 1)).trans (magOf_dvd m)
    exact exists_magOf ((Nat.dvd_mod_iff (magOf_dvd n)).mpr hdvd) ((Nat.mod_lt _ hn).trans (magOf_lt n))

/-- A quotient at most the bound is rounded at most to the bound. -/
theorem upTo_roundQ {neg : Bool} {a d : Nat} (hneg : neg = true → a = 0) (hd : 0 < d)
    (h : a ≤ magOf m * d) : UpTo m (roundQ neg a d) where
  sign hs := by
    rw [signBit_roundQ] at hs
    rw [magBits_roundQ, hneg hs]
    exact Nat.le_zero.mp (roundMag_le hd (Nat.zero_le _))
  le := (magBits_roundQ neg a d).trans_le (roundMag_le hd h)

theorem upTo_ofMagBits_zero (neg : Bool) (m : Nat) : UpTo m (ofMagBits neg 0) :=
  have h : magBits (ofMagBits neg 0) = 0 := magBits_ofMagBits neg (by decide)
  ⟨fun _ => h, h.trans_le (Nat.zero_le _)⟩

namespace UpTo

/-- Two values from zero up have different signs only where one of them is zero. -/
theorem mag_eq_zero_of_signs_ne (hx : UpTo m x) (hy : UpTo n y)
    (h : (signBit x != signBit y) = true) : mag x = 0 ∨ mag y = 0 := by
  cases hs : signBit x with
  | true => exact .inl (hx.mag_eq_zero_of_sign hs)
  | false => exact .inr (hy.mag_eq_zero_of_sign (by simpa [hs] using h))

theorem mul (hx : UpTo m x) (hy : UpTo n y) (hm : m < 0x7F800000) (hn : n < 0x7F800000)
    (h : magOf m * magOf n ≤ magOf k * unitScale) : UpTo k (ieeeMul x y) := by
  simp only [ieeeMul, hx.not_isNaN hm.le, hy.not_isNaN hn.le, hx.not_isInf hm, hy.not_isInf hn,
    Bool.or_self, Bool.false_eq_true, if_false]
  exact upTo_roundQ (fun hs => Nat.mul_eq_zero.mpr (hx.mag_eq_zero_of_signs_ne hy hs)) (by decide)
    ((Nat.mul_le_mul hx.mag_le hy.mag_le).trans h)

theorem div (hx : UpTo m x) (hy : UpTo n y) (hm : m < 0x7F800000) (hn : n < 0x7F800000)
    (hy0 : 0 < magBits y) (h : mag x * unitScale ≤ magOf k * mag y) : UpTo k (ieeeDiv x y) := by
  simp only [ieeeDiv, hx.not_isNaN hm.le, hy.not_isNaN hn.le, hx.not_isInf hm, hy.not_isInf hn,
    Bool.or_self, Bool.false_eq_true, if_false, hy0.ne']
  have hmag : 0 < mag y := magOf_strictMono hy0
  refine upTo_roundQ (fun hs => ?_) hmag h
  rw [(hx.mag_eq_zero_of_signs_ne hy hs).resolve_right hmag.ne', Nat.zero_mul]

/-- A finite value over infinity is a zero. -/
theorem div_inf (hx : UpTo m x) (hy : UpTo 0x7F800000 y) (hm : m < 0x7F800000)
    (hinf : magBits y = 0x7F800000) (k : Nat) : UpTo k (ieeeDiv x y) := by
  have hyi : isInf y = true := beq_of_eq hinf
  simp only [ieeeDiv, hx.not_isNaN hm.le, hy.not_isNaN le_rfl, hx.not_isInf hm, hyi,
    Bool.or_self, Bool.false_eq_true, if_false, if_true]
  exact upTo_ofMagBits_zero _ k

/-- The quotient by a greater value is at most 1.0. -/
theorem div_of_lt (hx : UpTo 0x7F800000 x) (hy : UpTo 0x7F800000 y) (h : magBits x < magBits y) :
    UpTo 0x3F800000 (ieeeDiv x y) := by
  have hxf : magBits x < 0x7F800000 := h.trans_le hy.le
  rcases hy.le.lt_or_eq with hyf | hinf
  · have hle : mag x * unitScale ≤ magOf 0x3F800000 * mag y := by
      rw [Nat.mul_comm]
      exact Nat.mul_le_mul_left _ ((mag_lt_iff x y).mpr h).le
    exact hx.self.div hy.self hxf hyf (Nat.zero_lt_of_lt h) hle
  · exact hx.self.div_inf hy hxf hinf _

/-- The quotient by a finite value of at least 1.0 is at most the dividend. -/
theorem div_of_one_le (hx : UpTo m x) (hy : UpTo n y) (hm : m < 0x7F800000) (hn : n < 0x7F800000)
    (h : 0x3F800000 ≤ magBits y) : UpTo m (ieeeDiv x y) := by
  have hmag : unitScale ≤ mag y := magOf_strictMono.monotone h
  exact hx.div hy hm hn (by omega) (Nat.mul_le_mul hx.mag_le hmag)

theorem add (hx : UpTo m x) (hy : UpTo n y) (hm : m < 0x7F800000) (hn : n < 0x7F800000)
    (h : magOf m + magOf n ≤ magOf k) : UpTo k (ieeeAdd x y) := by
  simp only [ieeeAdd, hx.not_isNaN hm.le, hy.not_isNaN hn.le, hx.not_isInf hm, hy.not_isInf hn,
    Bool.or_self, Bool.false_eq_true, if_false, hx.scaled_eq, hy.scaled_eq]
  split
  · exact upTo_ofMagBits_zero _ k
  · have hle : mag x + mag y ≤ magOf k := (Nat.add_le_add hx.mag_le hy.mag_le).trans h
    exact upTo_roundQ (fun hs => absurd (of_decide_eq_true hs) (by omega)) Nat.one_pos (by omega)

/-- A value past 1.0 and at most 2.0 is at most 1.0 after one is taken off. -/
theorem sub_one (hx : UpTo 0x40000000 x) (h : 0x3F800000 ≤ magBits x) :
    UpTo 0x3F800000 (ieeeSub x one32) := by
  have hm : mag x ≤ magOf 0x40000000 := hx.mag_le
  have h1 : unitScale ≤ mag x := magOf_strictMono.monotone h
  have hneg : isNaN (fneg one32) = false ∧ isInf (fneg one32) = false ∧
      scaled (fneg one32) = -(unitScale : Int) := by decide
  obtain ⟨hnan, hinf, hval⟩ := hneg
  simp only [ieeeSub, ieeeAdd, hx.not_isNaN (by decide), hx.not_isInf (by decide), hnan, hinf, hval,
    upTo_one32.not_isNaN (by decide), Bool.or_self, Bool.false_and, Bool.false_eq_true, if_false,
    hx.scaled_eq]
  split
  · exact upTo_ofMagBits_zero _ _
  · have h2 : magOf 0x40000000 = 2 * unitScale := by decide
    have h3 : magOf 0x3F800000 = unitScale := by decide
    exact upTo_roundQ (fun hs => absurd (of_decide_eq_true hs) (by omega)) Nat.one_pos (by omega)

/-- The remainder by a finite positive value is exact, and so strictly below the divisor. -/
theorem fmod (hx : UpTo m x) (hy : UpTo (n + 1) y) (hm : m < 0x7F800000) (hn : n + 1 < 0x7F800000)
    (hy0 : 0 < magBits y) : UpTo n (fmod32 x y) := by
  simp only [fmod32, hx.not_isNaN hm.le, hy.not_isNaN hn.le, hx.not_isInf hm, hy.not_isInf hn,
    beq_false_of_ne hy0.ne', Bool.or_self, Bool.false_eq_true, if_false]
  have hmag : 0 < mag y := magOf_strictMono hy0
  obtain ⟨k, hk⟩ : ∃ k, magOf k = mag x % mag y := exists_magOf_eq_mod hmag
  have hlt : k < magBits y := magOf_strictMono.lt_iff_lt.mp (hk.trans_lt (Nat.mod_lt _ hmag))
  have hkn : k ≤ n := Nat.le_of_lt_succ (hlt.trans_le hy.le)
  refine upTo_roundQ (fun hs => ?_) Nat.one_pos ?_
  · rw [hx.mag_eq_zero_of_sign hs, Nat.zero_mod]
  · rw [← hk, Nat.mul_one]
    exact magOf_strictMono.monotone hkn

end UpTo

/-- A natural number rounds to at most a bound that it is at most. -/
theorem upTo_toB32 {a : Nat} (h : a * unitScale ≤ magOf m) : UpTo m (toB32 a) :=
  upTo_roundQ (fun hs => absurd (of_decide_eq_true hs) (by omega)) Nat.one_pos (by simpa using h)

/-- A positive natural number rounds to at least 1.0. -/
theorem one_le_magBits_toB32 {a : Nat} (h : 1 ≤ a) : 0x3F800000 ≤ magBits (toB32 a) := by
  have hle : magOf 0x3F800000 * 1 ≤ (a : Int).natAbs * unitScale := by
    rw [Nat.mul_one, Int.natAbs_natCast]
    exact Nat.le_mul_of_pos_left unitScale h
  exact (le_roundMag Nat.one_pos (by decide) hle).trans_eq (magBits_roundQ ..).symm

/-- A natural number too large for a finite value rounds to infinity. -/
theorem upTo_inf_toB32 (a : Nat) : UpTo 0x7F800000 (toB32 a) where
  sign hs := absurd (of_decide_eq_true ((signBit_roundQ ..).symm.trans hs)) (by omega)
  le := (magBits_roundQ ..).trans_le (roundMag_le_inf ..)

theorem upTo_iff_of_le (h : m ≤ n) : UpTo m x ↔ UpTo n x ∧ magBits x ≤ m :=
  ⟨fun hx => ⟨hx.mono h, hx.le⟩, fun ⟨hx, hle⟩ => ⟨hx.sign, hle⟩⟩

/-- The values in `[0, 1.0]`. -/
theorem upTo_one_iff : UpTo 0x3F800000 x ↔ fle zero32 x = true ∧ fle x one32 = true := by
  rw [upTo_iff_of_le (n := 0x7F800000) (by decide), fle_zero32_iff]
  exact and_congr_right fun hx => (hx.fle_iff (upTo_one32.mono (by decide))).symm

/-- The values in `[0, TWO_PI32)`. -/
theorem upTo_below_twoPi_iff : UpTo 0x40C90FDA x ↔ fle zero32 x = true ∧ flt x twoPi32 = true := by
  rw [upTo_iff_of_le (n := 0x7F800000) (by decide), fle_zero32_iff]
  exact and_congr_right fun hx =>
    Nat.lt_succ_iff.symm.trans (hx.flt_iff (upTo_twoPi32.mono (by decide))).symm

end Sys2Proof.Machine
end

section
/-! The generator table (R110 to R117): what each of its commands does, and the ranges of its oscillators. -/

namespace Sys2Proof.Machine

variable {s t : State} {c : Config} {g : GenSlot} {f : B32}

/-! ## The ranges of an advanced oscillator -/

/-- A legal frequency is from zero up and below the sample rate (R110), which may round to infinity. -/
theorem freqOk_iff : freqOk c f = true ↔ UpTo 0x7F800000 f ∧ magBits f < magBits (srF c) := by
  rw [freqOk, Bool.and_eq_true, fle_zero32_iff]
  exact and_congr_right fun hf => hf.flt_iff (upTo_inf_toB32 c.sr)

theorem inRange_of_free (h : g.kind = .free) : g.InRange c := by
  simp only [GenSlot.InRange, h]

theorem inRange_sine_iff (h : g.kind = .sine) :
    g.InRange c ↔ freqOk c g.freq = true ∧ (c.sr < 2 ^ 125 → UpTo 0x40C90FDA g.ph) := by
  simp only [GenSlot.InRange, h, upTo_below_twoPi_iff]

theorem inRange_phasor_iff (h : g.kind = .phasor) :
    g.InRange c ↔ freqOk c g.freq = true ∧ UpTo 0x3F800000 g.ph ∧ UpTo 0x3F800000 g.out := by
  simp only [GenSlot.InRange, h, upTo_one_iff, and_assoc]

/-- A Phasor's advanced phase is at most 2.0 before it wraps, and so at most 1.0 after. -/
theorem phasorStep_ph_upTo (hu : c.num = .ieee754) (hf : freqOk c g.freq = true)
    (hph : UpTo 0x3F800000 g.ph) : UpTo 0x3F800000 (phasorStep c g).ph := by
  obtain ⟨hf0, hlt⟩ := freqOk_iff.mp hf
  have hinc : UpTo 0x3F800000 (ieeeDiv g.freq (srF c)) := hf0.div_of_lt (upTo_inf_toB32 c.sr) hlt
  have hsum : UpTo 0x40000000 (ieeeAdd g.ph (ieeeDiv g.freq (srF c))) :=
    hph.add hinc (by decide) (by decide) (by decide)
  have hsum' := hsum.mono (n := 0x7F800000) (by decide)
  have hone : UpTo 0x7F800000 one32 := upTo_one32.mono (by decide)
  simp only [phasorStep, hu, fadd, fdiv, fsub]
  split
  · next hwrap => exact hsum.sub_one ((hone.flt_iff hsum').mp hwrap).le
  · next hwrap => exact ⟨hsum.sign, not_lt.mp fun h => hwrap ((hone.flt_iff hsum').mpr h)⟩

/-- R111's increment is at most `TWO_PI32 · 2^125`, whose pattern `0x7F490FDB` is finite: the product with
the frequency stays below it, and the division by a sample rate of at least 1.0 does not enlarge it. -/
theorem sineIncrement_upTo (hc : cfgValid c = true) (hsr : c.sr < 2 ^ 125) (hf : freqOk c f = true) :
    UpTo 0x7F490FDB (ieeeDiv (ieeeMul twoPi32 f) (srF c)) := by
  obtain ⟨hf0, hlt⟩ := freqOk_iff.mp hf
  have hsrF : UpTo 0x7E000000 (srF c) := by
    refine upTo_toB32 ((Nat.mul_le_mul_right _ hsr.le).trans ?_)
    decide
  have hf' : UpTo 0x7E000000 f := ⟨hf0.sign, hlt.le.trans hsrF.le⟩
  have hmul : UpTo 0x7F490FDB (ieeeMul twoPi32 f) :=
    upTo_twoPi32.mul hf' (by decide) (by decide) (by decide)
  exact hmul.div_of_one_le hsrF (by decide) (by decide)
    (one_le_magBits_toB32 ((cfgValid_iff c).mp hc).1)

/-- A Sine's advanced phase is finite, so its remainder is below `TWO_PI32`. -/
theorem sineStep_ph_upTo (hc : cfgValid c = true) (hu : c.num = .ieee754) (hsr : c.sr < 2 ^ 125)
    (hf : freqOk c g.freq = true) (hph : UpTo 0x40C90FDA g.ph) : UpTo 0x40C90FDA (sineStep c g).ph := by
  have hsum : UpTo 0x7F490FDC (ieeeAdd g.ph (ieeeDiv (ieeeMul twoPi32 g.freq) (srF c))) :=
    hph.add (sineIncrement_upTo hc hsr hf) (by decide) (by decide) (by decide)
  simp only [sineStep, hu, fadd, fdiv, fmul]
  exact hsum.fmod upTo_twoPi32 (by decide) (by decide) (by decide)

/-- An advance keeps a slot in its range. -/
theorem genStep_inRange (hc : cfgValid c = true) (hu : c.num = .ieee754) (hg : g.InRange c) :
    (genStep c g).InRange c := by
  cases hk : g.kind with
  | free => rwa [genStep_free c hk]
  | sine =>
    obtain ⟨hf, hph⟩ := (inRange_sine_iff hk).mp hg
    rw [inRange_sine_iff ((genStep_kind c g).trans hk), genStep_freq]
    simp only [genStep, hk]
    exact ⟨hf, fun hsr => sineStep_ph_upTo hc hu hsr hf (hph hsr)⟩
  | phasor =>
    obtain ⟨hf, hph, -⟩ := (inRange_phasor_iff hk).mp hg
    rw [inRange_phasor_iff ((genStep_kind c g).trans hk), genStep_freq]
    simp only [genStep, hk]
    exact ⟨hf, phasorStep_ph_upTo hu hf hph, hph⟩

/-- A slot newly registered with a legal frequency is in its range. -/
theorem inRange_registered (k : GenKind) (hf : freqOk c f = true) :
    GenSlot.InRange c ⟨k, f, zero32, zero32⟩ := by
  cases k with
  | free => exact inRange_of_free rfl
  | sine => exact (inRange_sine_iff rfl).mpr ⟨hf, fun _ => upTo_zero32 _⟩
  | phasor => exact (inRange_phasor_iff rfl).mpr ⟨hf, upTo_zero32 _, upTo_zero32 _⟩

/-! ## The ranges along a command -/

/-- Every oscillator of the block is in its range (R117). -/
def State.OscillatorsInRange (s : State) : Prop := ∀ g ∈ s.gen, g.InRange s.cfg

/-- GEN_REG with a bad frequency leaves free fields, but sets POISON. -/
theorem execGenReg_inRange {type : BitVec 2} (hs : s.OscillatorsInRange)
    (e : execGenReg type f s = .next t) (hp : t.poison = false) : t.OscillatorsInRange := by
  unfold execGenReg at e
  split at e
  · rw [raiseIllegal_eq_next.mp e]; exact hs
  · next k _ =>
    split at e
    · rw [raiseExhausted_eq_next.mp e]; exact hs
    · split at e
      · next hf =>
        rw [reply_eq_next.mp e]
        exact forall_mem_set hs (inRange_registered k hf)
      · rw [replyPrecond_eq_next.mp e] at hp
        cases hp

theorem execGenRel_inRange {h : BitVec 8} (hs : s.OscillatorsInRange)
    (e : execGenRel h s = .next t) : t.OscillatorsInRange := by
  unfold execGenRel at e
  split at e
  · rw [raiseBadHandle_eq_next.mp e]; exact hs
  · rw [reply_eq_next.mp e]
    exact forall_mem_set hs (inRange_of_free rfl)

theorem execGenAdv_inRange (hc : cfgValid s.cfg = true) (hu : s.cfg.num = .ieee754)
    (hs : s.OscillatorsInRange) (e : execGenAdv s = .next t) : t.OscillatorsInRange := by
  rw [reply_eq_next.mp e]
  exact List.forall_mem_map.mpr fun g hg => genStep_inRange hc hu (hs g hg)

/-- The commands of the other units, and GEN_RD, write no slot. -/
theorem exec_inRange_of_opc {i : Instr} (hi : i.opc ≠ 0x01#8 ∧ i.opc ≠ 0x02#8 ∧ i.opc ≠ 0x03#8)
    (hs : s.OscillatorsInRange) (e : exec i s = .next t) : t.OscillatorsInRange := by
  obtain ⟨hreg, hrel, hadv⟩ := hi
  obtain ⟨hcfg, -, -, hgen, -⟩ := commandsWriteOnlyTheirUnits i s t e
  unfold State.OscillatorsInRange
  rwa [hcfg, hgen hreg hrel hadv]

/-- Settles O31: GEN_REG, GEN_REL and GEN_ADV keep every slot in its range; no other command writes one. -/
theorem oscillatorRangesAreKept : Obligations.OscillatorRangesAreKept := by
  intro i s t hc hu hs e hp
  cases i with
  | genReg => exact execGenReg_inRange hs e hp
  | genRel => exact execGenRel_inRange hs e
  | genAdv => exact execGenAdv_inRange hc hu hs e
  | _ => exact exec_inRange_of_opc (by simp [Instr.opc]) hs e

/-! ## What each command does -/

/-- The types of a generator (R82), as GEN_REG reads them. -/
theorem genKindOf_eq_some {type : BitVec 2} {k : GenKind} :
    genKindOf type = some k ↔ type = 1#2 ∧ k = .sine ∨ type = 2#2 ∧ k = .phasor := by
  unfold genKindOf
  split
  · next h => simp [h, eq_comm]
  · split
    · next h => simp [h, eq_comm]
    · next h1 h2 => simp [h1, h2]

/-- The slot GEN_REG takes is Free and has no Free slot before it. -/
theorem firstFree_eq_some {gs : List GenSlot} {h : Nat} (hg : gs[h]? = some g) (hfree : g.kind = .free)
    (hlow : ∀ (j : Nat) (g' : GenSlot), j < h → gs[j]? = some g' → g'.kind ≠ .free) :
    firstFree gs = some h := by
  obtain ⟨hl, rfl⟩ := List.getElem?_eq_some_iff.mp hg
  refine List.findIdx?_eq_some_iff_getElem.mpr ⟨hl, by simp [hfree], fun j hj => ?_⟩
  simpa using hlow j _ hj (List.getElem?_eq_getElem (hj.trans hl))

theorem firstFree_eq_none {gs : List GenSlot} (h : ∀ g ∈ gs, g.kind ≠ .free) : firstFree gs = none :=
  List.findIdx?_eq_none_iff.mpr fun g hg => beq_false_of_ne (h g hg)

/-- Settles O26: the type and the first Free slot select the arm, and R110 is its one condition. -/
theorem genRegTakesTheLowestFreeSlot : Obligations.GenRegTakesTheLowestFreeSlot := by
  intro s type kind freq h g htype hg hfree hlow
  simp only [exec, execGenReg, genKindOf_eq_some.mpr htype, firstFree_eq_some hg hfree hlow, freqOk,
    Bool.and_eq_true]
  rfl

/-- Settles O27: the search for a Free slot fails before the frequency is looked at. -/
theorem genRegExhaustedWhenFull : Obligations.GenRegExhaustedWhenFull := by
  intro s type freq htype hfull
  obtain ⟨k, hk⟩ : ∃ k, genKindOf type = some k := by
    rcases htype with rfl | rfl
    exacts [⟨.sine, rfl⟩, ⟨.phasor, rfl⟩]
  simp only [exec, execGenReg, hk, firstFree_eq_none hfull]
  rfl

/-- Settles O28: a live handle names a slot, so GEN_REL writes it. -/
theorem genRelFreesTheSlot : Obligations.GenRelFreesTheSlot := by
  intro s h g hcap hg hlive
  simp only [exec, execGenRel, liveGen_eq_some.mpr ⟨hcap, hg, hlive⟩]
  rfl

/-- Settles O29: each slot's new value is that of `genStep`, kind by kind. -/
theorem genAdvStepsEverySlot : Obligations.GenAdvStepsEverySlot := by
  intro s
  refine reply_eq_next.mpr (congrArg (State.respond .ok []) (congrArg (State.setGens · s) ?_))
  refine List.map_congr_left fun ⟨kind, freq, ph, out⟩ _ => ?_
  cases kind <;> rfl

/-- Settles O30: a live handle names a slot, so GEN_RD replies its output. -/
theorem genRdReturnsTheLastOutput : Obligations.GenRdReturnsTheLastOutput := by
  intro s h g hcap hg hlive
  simp only [exec, execGenRd, liveGen_eq_some.mpr ⟨hcap, hg, hlive⟩]
  rfl

end Sys2Proof.Machine
end

section
/-! The delay line (R140 to R144): what a DLY_APPLY does, and what a run of samples hears of earlier ones. -/

namespace Sys2Proof.Machine

/-! ## What DLY_APPLY does -/

/-- The preconditions of R142, one by one. A feedback within its two bounds is not a NaN. -/
theorem delayPreOk_iff {dr fb : B32} {cap : Nat} : delayPreOk dr fb cap = true ↔
    isFinite dr = true ∧ fle 0#32 dr = true ∧ truncInt dr ≤ cap ∧
      flt 0xBF800000#32 fb = true ∧ flt fb 0x3F800000#32 = true := by
  have hneg : toB32 (-1) = 0xBF800000#32 := by decide
  have hnan : flt 0xBF800000#32 fb = true → isNaN fb = false := by simp +contextual [flt]
  simp only [delayPreOk, hneg, Bool.and_eq_true, decide_eq_true_eq, Bool.not_eq_true']
  constructor
  · rintro ⟨⟨⟨⟨⟨hfin, hle⟩, hcap⟩, -⟩, hlow⟩, hhigh⟩
    exact ⟨hfin, hle, hcap, hlow, hhigh⟩
  · rintro ⟨hfin, hle, hcap, hlow, hhigh⟩
    exact ⟨⟨⟨⟨⟨hfin, hle⟩, hcap⟩, hnan hlow⟩, hlow⟩, hhigh⟩

/-- DLY_APPLY of an instance that exists has two answers, which R142 selects between. -/
theorem execDlyApply_of_unit {s : State} {i : BitVec 8} {d : Delay} {cap : Nat}
    (hi : i.toNat < s.cfg.nDelay) (hd : s.dly[i.toNat]? = some d)
    (hcap : s.cfg.dlyCap[i.toNat]? = some cap) (x delay fb : B32) :
    execDlyApply i x delay fb s =
      if delayPreOk (delayRaw s.cfg delay) fb cap then
        reply .ok [delayRead d (truncInt (delayRaw s.cfg delay)) cap]
          (s.setDly i.toNat (delayStep s.cfg.num d (truncInt (delayRaw s.cfg delay)) cap x fb).1)
      else
        replyPrecond [s.anyWord (cap + 1)]
          ((s.setDly i.toNat (anyDelay cap s)).skipDraws (cap + 2)) := by
  have hgetD : s.cfg.dlyCap.getD i.toNat 0 = cap := by rw [List.getD_eq_getElem?_getD, hcap]; rfl
  simp only [execDlyApply, unitAt_eq_some.mpr ⟨hi, hd⟩, hgetD]
  rfl

/-- Settles O32: with the preconditions met, DLY_APPLY is one sample through the delay line. -/
theorem dlyApplyReadsThenWrites : Obligations.DlyApplyReadsThenWrites := by
  rintro s i x delay fb d cap _ _ hi hd hcap rfl hfin hle hoff hlow hhigh rfl
  have hok : delayPreOk (delayRaw s.cfg delay) fb cap = true :=
    delayPreOk_iff.mpr ⟨hfin, hle, hoff, hlow, hhigh⟩
  refine (execDlyApply_of_unit hi hd hcap x delay fb).trans ?_
  rw [if_pos hok]
  rfl

/-- Settles O33: whichever of R142's conditions fails, `pre_ok` fails, and the delay line is left free. -/
theorem dlyApplyViolationLeavesFreeValues : Obligations.DlyApplyViolationLeavesFreeValues := by
  rintro s i x delay fb d cap dr hi hd hcap hdr hbad
  have hraw : delayRaw s.cfg delay = dr := hdr.symm
  have hnot : ¬ delayPreOk dr fb cap = true := by
    rw [delayPreOk_iff]
    rintro ⟨hfin, hle, hoff, hlow, hhigh⟩
    have hcut : (cap : Int) < truncInt dr := by
      simpa only [hfin, hle, hlow, hhigh, Bool.true_eq_false, false_or, or_false] using hbad
    exact Int.not_le.mpr hcut hoff
  refine (execDlyApply_of_unit hi hd hcap x delay fb).trans ?_
  rw [hraw, if_neg hnot]
  rfl

/-! ## The buffer, oldest sample first

Read from the write head on, the circular buffer is a queue: a sample takes its first entry off and puts
the entry written at its end, and an offset `D` counts from its end. -/

/-- The entries of a delay line, oldest first: the write head stands at the oldest. -/
def Delay.window (d : Delay) : List B32 := d.buf.rotate d.wp

variable {u : NumUnit} {d : Delay} {cap off n : Nat}

theorem Delay.Fits.window_length (h : d.Fits cap) : d.window.length = cap := by
  rw [Delay.window, List.length_rotate, h.bufLength]

theorem Delay.Fits.window_getD (h : d.Fits cap) {k : Nat} (hk : k < cap) :
    d.window.getD k 0#32 = d.buf.getD ((d.wp + k) % cap) 0#32 := by
  rw [List.getD_eq_getElem?_getD, List.getD_eq_getElem?_getD, Delay.window,
    List.getElem?_rotate (h.bufLength.symm ▸ hk), h.bufLength, Nat.add_comm k]

/-- The entry read at offset `D` is the `D`-th from the end. -/
theorem delayRead_eq_window (h : d.Fits cap) (h1 : 1 ≤ off) (hoff : off ≤ cap) :
    delayRead d off cap = d.window.getD (cap - off) 0#32 := by
  have hidx : (((d.wp : Int) - off) % (cap : Int)).toNat = (d.wp + (cap - off)) % cap := by
    have : (d.wp : Int) - off = ((d.wp + (cap - off) : Nat) : Int) - cap := by omega
    rw [this, Int.sub_emod_right, ← Int.natCast_emod, Int.toNat_natCast]
  rw [h.window_getD (by omega), delayRead, hidx]

/-- Writing at a list's rotation point and moving the point past it puts the value at the end. -/
theorem rotate_set_succ {α : Type} {l : List α} {k : Nat} (hk : k < l.length) (v : α) :
    (l.set k v).rotate (k + 1) = (l.rotate k).drop 1 ++ [v] := by
  have htake : (l.set k v).take (k + 1) = l.take k ++ [v] := by
    rw [List.take_add_one, List.take_set_of_le le_rfl, List.getElem?_set_self hk]
    rfl
  rw [List.rotate_eq_drop_append_take (by rwa [List.length_set]), List.drop_set_of_lt (Nat.lt_succ_self k),
    htake, List.rotate_eq_drop_append_take hk.le, List.drop_append_of_le_length, List.drop_drop,
    List.append_assoc]
  rw [List.length_drop]
  omega

/-- A sample takes the oldest entry off and puts the one written at the end. -/
theorem delayStep_window (h : d.Fits cap) (x fb : B32) :
    (delayStep u d off cap x fb).1.window =
      d.window.drop 1 ++ [fadd u x (fmul u (delayStep u d off cap x fb).2 fb)] := by
  obtain ⟨hlen, hwp⟩ := h
  rw [Delay.window, Delay.window, ← rotate_set_succ (hlen.symm ▸ hwp), delayStep]
  conv_rhs => rw [← List.rotate_mod, List.length_set, hlen]

/-! ## A run of samples -/

/-- One call of a run: the delay line, then the outputs and the values written so far. -/
def delayRunStep (u : NumUnit) (cap off : Nat) (p : Delay × List B32 × List B32) (q : B32 × B32) :
    Delay × List B32 × List B32 :=
  ((delayStep u p.1 off cap q.1 q.2).1, p.2.1 ++ [(delayStep u p.1 off cap q.1 q.2).2],
    p.2.2 ++ [fadd u q.1 (fmul u (delayStep u p.1 off cap q.1 q.2).2 q.2)])

/-- What `n` calls from the delay line `d` have done. The entries of `d`, oldest first, and the values
written since make one history: the buffer is its last `cap` entries, and the outputs are what stands in
it from `cap - off` on. -/
structure DelayRan (d : Delay) (cap off n : Nat) (p : Delay × List B32 × List B32) : Prop where
  fits : p.1.Fits cap
  wp : p.1.wp = (d.wp + n) % cap
  written : p.2.2.length = n
  window : p.1.window = (d.window ++ p.2.2).drop n
  outputs : p.2.1 = ((d.window ++ p.2.2).drop (cap - off)).take n

theorem delayRan_start (h : d.Fits cap) (off : Nat) : DelayRan d cap off 0 (d, [], []) where
  fits := h
  wp := (Nat.mod_eq_of_lt h.wpBound).symm
  written := rfl
  window := by simp
  outputs := rfl

/-- A call reads the history `off` entries before its end, and appends to it. -/
theorem DelayRan.step {p : Delay × List B32 × List B32} (hd : d.Fits cap) (h1 : 1 ≤ off)
    (hoff : off ≤ cap) (h : DelayRan d cap off n p) (q : B32 × B32) :
    DelayRan d cap off (n + 1) (delayRunStep u cap off p q) where
  fits := delayStep_fits h.fits off q.1 q.2
  wp := by simp [delayRunStep, delayStep, h.wp, Nat.add_assoc]
  written := by simp [delayRunStep, h.written]
  window := by
    have hlen : n + 1 ≤ (d.window ++ p.2.2).length := by
      have := hd.wpBound
      rw [List.length_append, hd.window_length, h.written]; omega
    rw [delayRunStep, delayStep_window h.fits, h.window, List.drop_drop, ← List.append_assoc,
      List.drop_append_of_le_length hlen]
  outputs := by
    have hlen : cap - off + n < (d.window ++ p.2.2).length := by
      rw [List.length_append, hd.window_length, h.written]; omega
    have hread : delayRead p.1 off cap = (d.window ++ p.2.2)[cap - off + n] := by
      rw [delayRead_eq_window h.fits h1 hoff, h.window, List.getD_eq_getElem?_getD, List.getElem?_drop,
        Nat.add_comm n, List.getElem?_eq_getElem hlen, Option.getD_some]
    rw [delayRunStep, delayStep, ← List.append_assoc, List.drop_append_of_le_length (by omega),
      List.take_append_of_le_length (by rw [List.length_drop]; omega), List.take_add_one, ← h.outputs,
      List.getElem?_drop, List.getElem?_eq_getElem hlen, hread]
    rfl

theorem delayRan_foldl (h : d.Fits cap) (h1 : 1 ≤ off) (hoff : off ≤ cap) (ins : List (B32 × B32)) :
    DelayRan d cap off ins.length (ins.foldl (delayRunStep u cap off) (d, [], [])) := by
  induction ins using List.reverseRecOn with
  | nil => exact delayRan_start h off
  | append_singleton qs q ih =>
    rw [List.foldl_concat, List.length_append]
    exact ih.step h h1 hoff q

/-- Settles O34: the `n`-th output is the entry `n + (C - D)` of the history, which stands in the buffer
of the start for the first `D` calls and among the written values after them. -/
theorem delayLineDelaysByItsOffset : Obligations.DelayLineDelaysByItsOffset := by
  intro u d cap off ins hd h1 hoff run hrun
  have h : DelayRan d cap off ins.length run := hrun ▸ delayRan_foldl hd h1 hoff ins
  refine ⟨h.wp, fun n hn => ?_⟩
  have hout : run.2.1.getD n 0#32 = (d.window ++ run.2.2).getD (cap - off + n) 0#32 := by
    rw [h.outputs, List.getD_eq_getElem?_getD, List.getElem?_take_of_lt hn, List.getElem?_drop,
      ← List.getD_eq_getElem?_getD]
  rw [hout]
  split
  · next hlt =>
    rw [List.getD_append _ _ _ _ (by rw [hd.window_length]; omega), hd.window_getD (by omega)]
    congr 2; omega
  · next hge =>
    rw [List.getD_append_right _ _ _ _ (by rw [hd.window_length]; omega), hd.window_length]
    congr 1; omega

end Sys2Proof.Machine
end

section
/-! The reverb block (R160 to R164): what RVB_CFG and RVB_APPLY do, and what a chunk of samples makes. -/

namespace Sys2Proof.Machine

variable {kernel : RvbKernel} {r : Reverb} {x : B32}

/-! ## What each command does -/

/-- The block after a chunk boundary (R163): the kernel has run over the full chunk `xs`, with the latched
parameters. -/
def Reverb.runKernel (kernel : RvbKernel) (r : Reverb) (xs : Vector B32 32) : Reverb where
  inp := xs
  out := (kernel r.shadow r.kst xs).1
  ridx := 0
  shadow := r.shadow
  active := r.shadow
  kst := (kernel r.shadow r.kst xs).2

/-- A sample that does not fill the chunk is only stored (R163). -/
theorem reverbStep_of_not_last (h : r.ridx ≠ 31) : reverbStep kernel r x =
    ({ r with inp := r.inp.set r.ridx x, ridx := r.ridx + 1 }, r.out[r.ridx]) :=
  if_neg h

/-- The sample that fills the chunk latches the parameters and runs the kernel (R163). -/
theorem reverbStep_of_last (h : r.ridx = 31) : reverbStep kernel r x =
    (r.runKernel kernel (r.inp.set r.ridx x), r.out[r.ridx]) :=
  if_pos h

/-- Settles O35: the index names a reverb block, so RVB_CFG writes it. -/
theorem rvbCfgWritesTheShadow : Obligations.RvbCfgWritesTheShadow := by
  intro s i r wet decay room cutoff predelay hi hr
  simp only [exec, execRvbCfg, unitAt_eq_some.mpr ⟨hi, hr⟩]
  rfl

/-- Settles O36: RVB_APPLY takes one step of the block, in or at the end of its chunk. -/
theorem rvbApplyDrainsThenAccumulates : Obligations.RvbApplyDrainsThenAccumulates := by
  intro s i r x hi hr
  simp only [exec, execRvbApply, unitAt_eq_some.mpr ⟨hi, hr⟩]
  by_cases h : r.ridx = 31
  · rw [reverbStep_of_last h, if_pos h]; rfl
  · rw [reverbStep_of_not_last h, if_neg h]; rfl

/-! ## A chunk of samples -/

section
variable {α : Type} {n : Nat} (v : Vector α n) (k : Fin n)

/-- The entries up to one are those before it, and it. -/
theorem take_succ_toList : v.toList.take (k + 1) = v.toList.take k ++ [v[k]] :=
  (List.take_append_getElem (by simp)).symm

/-- Writing an entry puts the value behind the entries before it. -/
theorem take_succ_toList_set (a : α) :
    (v.set k a).toList.take (k + 1) = v.toList.take k ++ [a] := by
  rw [take_succ_toList, Vector.toList_set, List.take_set_of_le le_rfl]
  simp

end

/-- One call of a run: the block, then the replies so far. -/
def reverbRunStep (kernel : RvbKernel) (p : Reverb × List B32) (x : B32) : Reverb × List B32 :=
  ((reverbStep kernel p.1 x).1, p.2 ++ [(reverbStep kernel p.1 x).2])

/-- What the samples `seen` have done to the block `r` since a chunk boundary, with the chunk not yet full:
they stand at the front of the input chunk, and as many entries of the output chunk are replied. -/
structure ReverbRan (r : Reverb) (seen : List B32) (p : Reverb × List B32) : Prop where
  out : p.1.out = r.out
  shadow : p.1.shadow = r.shadow
  kst : p.1.kst = r.kst
  ridx : p.1.ridx.val = seen.length
  inp : p.1.inp.toList.take p.1.ridx = seen
  replies : p.2 = r.out.toList.take p.1.ridx

variable {seen : List B32} {p : Reverb × List B32}

theorem reverbRan_start (h : r.ridx = 0) : ReverbRan r [] (r, []) where
  out := rfl
  shadow := rfl
  kst := rfl
  ridx := congrArg Fin.val h
  inp := by simp [h]
  replies := by simp [h]

namespace ReverbRan

theorem inp_set (h : ReverbRan r seen p) (x : B32) :
    (p.1.inp.set p.1.ridx x).toList.take (p.1.ridx + 1) = seen ++ [x] := by
  rw [take_succ_toList_set, h.inp]

theorem replies_concat (h : ReverbRan r seen p) :
    p.2 ++ [p.1.out[p.1.ridx]] = r.out.toList.take (p.1.ridx + 1) := by
  rw [take_succ_toList, h.replies, h.out]

theorem step (h : ReverbRan r seen p) (hlt : seen.length < 31) (x : B32) :
    ReverbRan r (seen ++ [x]) (reverbRunStep kernel p x) := by
  have hridx := h.ridx
  have hnext : (p.1.ridx + 1).val = p.1.ridx + 1 := Fin.val_add_one_of_lt' (by omega)
  rw [reverbRunStep, reverbStep_of_not_last (by omega)]
  exact
    { out := h.out
      shadow := h.shadow
      kst := h.kst
      ridx := by rw [hnext, hridx, List.length_append, List.length_singleton]
      inp := by rw [hnext]; exact h.inp_set x
      replies := by rw [hnext]; exact h.replies_concat }

theorem foldl (h : r.ridx = 0) (seen : List B32) (hlen : seen.length < 32) :
    ReverbRan r seen (seen.foldl (reverbRunStep kernel) (r, [])) := by
  induction seen using List.reverseRecOn with
  | nil => exact reverbRan_start h
  | append_singleton xs x ih =>
    rw [List.length_append, List.length_singleton] at hlen
    rw [List.foldl_concat]
    exact (ih (by omega)).step (by omega) x

/-- The sample that fills the chunk gives the kernel the whole of it, and drains the last entry. -/
theorem fill (h : ReverbRan r seen p) {xs : Vector B32 32} (hxs : xs.toList = seen ++ [x]) :
    reverbRunStep kernel p x = (r.runKernel kernel xs, r.out.toList) := by
  have hlen : seen.length = 31 := by simpa using (congrArg List.length hxs).symm
  have hridx : p.1.ridx.val + 1 = 32 := by rw [h.ridx, hlen]
  have hinp : p.1.inp.set p.1.ridx x = xs :=
    Vector.toList_inj.mp <| by
      rw [hxs, ← h.inp_set, List.take_of_length_le (by simp [hridx])]
  have hreplies : p.2 ++ [p.1.out[p.1.ridx]] = r.out.toList := by
    rw [h.replies_concat, List.take_of_length_le (by simp [hridx])]
  rw [reverbRunStep, reverbStep_of_last (by omega), hinp, hreplies, Reverb.runKernel, h.shadow, h.kst]
  rfl

end ReverbRan

/-- Settles O37: the first 31 samples fill the chunk up to its last entry, and the 32nd fills that. -/
theorem reverbRunsTheKernelOncePerChunk : Obligations.ReverbRunsTheKernelOncePerChunk := by
  intro kernel r xs h
  obtain ⟨seen, x, hxs⟩ : ∃ seen x, xs.toList = seen ++ [x] :=
    ⟨_, _, (List.dropLast_concat_getLast (List.ne_nil_of_length_pos (by simp))).symm⟩
  have hlen : seen.length < 32 := by simpa using (congrArg List.length hxs).ge
  have hran : ReverbRan r seen (seen.foldl (reverbRunStep kernel) (r, [])) := .foldl h seen hlen
  rw [hxs, List.foldl_concat]
  exact hran.fill hxs

end Sys2Proof.Machine
end

section
/-! The spectral processor (R180 to R187): what FFT_IN, FFT_OUT and FFT_SHIFT do, and the transform as bit
reversal and stages of butterflies. -/

namespace Sys2Proof.Machine

/-! ## What each command does -/

/-- The windowed frame is the previous samples under the first half of the window, then the current ones
under the second. -/
theorem windowedFrame_eq_append (c : Config) (ovl cur : List B32) : windowedFrame c ovl cur =
    ((List.range c.fftN).map fun m => ⟨fmul c.num (c.fftWindow.getD m 0#32) (ovl.getD m 0#32), 0#32⟩) ++
      ((List.range c.fftN).map fun m =>
        ⟨fmul c.num (c.fftWindow.getD (c.fftN + m) 0#32) (cur.getD m 0#32), 0#32⟩) := by
  rw [windowedFrame, Config.fftL, Nat.two_mul, List.range_add, List.map_append, List.map_map]
  refine congrArg₂ _ (List.map_congr_left fun m hm => ?_) (List.map_congr_left fun m _ => ?_)
  · simp only [if_pos (List.mem_range.mp hm), zero32]
  · simp only [Function.comp_apply, if_neg (Nat.not_lt.mpr (Nat.le_add_right c.fftN m)),
      Nat.add_sub_cancel_left, zero32]

/-- Settles O38: the index names a spectral processor, whose frame is complete or takes one more sample. -/
theorem fftInTransformsACompleteFrame : Obligations.FftInTransformsACompleteFrame := by
  rintro s i f _ x spectrum hi hf hspec rfl
  rw [← windowedFrame_eq_append] at hspec
  subst hspec
  simp only [exec, execFftIn, unitAt_eq_some.mpr ⟨hi, hf⟩, spectralIn]
  split <;> rfl

/-- Settles O39: after the frame that may be waiting is taken, a sample is left to drain or none is. -/
theorem fftOutOverlapAddsAndDrains : Obligations.FftOutOverlapAddsAndDrains := by
  rintro s i f g _ hi hf rfl hg
  have htake : spectralTake s.cfg f = g := hg.symm
  simp only [exec, execFftOut, unitAt_eq_some.mpr ⟨hi, hf⟩, spectralOut, htake]
  split <;> rfl

/-- Settles O40: the gathered bins are `shiftedBin`'s, and the sign of the factor selects the arm. -/
theorem fftShiftGathersBins : Obligations.FftShiftGathersBins := by
  intro s i f r bin hi hf hbin
  obtain rfl : bin = shiftedBin s.cfg f.pers r := by
    funext k
    rw [hbin, shiftedBin]
    simp only [Bool.and_eq_true, decide_eq_true_eq]
    rfl
  simp only [exec, execFftShift, unitAt_eq_some.mpr ⟨hi, hf⟩]
  rfl

/-- Settles O42: an entry of a table is one value of the model's fixed-point series, rounded once. -/
theorem listedTwiddlesAndWindows : Obligations.ListedTwiddlesAndWindows := by
  unfold Obligations.ListedTwiddlesAndWindows
  decide +kernel

/-! ## Bit reversal -/

theorem bitrev_lt (n m : Nat) : bitrev n m < 2 ^ n := by
  induction n generalizing m with
  | zero => exact Nat.one_pos
  | succ n ih =>
    have hbit : m % 2 * 2 ^ n ≤ 1 * 2 ^ n :=
      Nat.mul_le_mul_right _ (Nat.le_of_lt_succ (Nat.mod_lt m Nat.two_pos))
    have := ih (m / 2)
    rw [bitrev, pow_succ]
    omega

theorem testBit_bitrev {n j : Nat} (m : Nat) (hj : j < n) :
    (bitrev n m).testBit j = m.testBit (n - 1 - j) := by
  induction n generalizing m with
  | zero => exact absurd hj (Nat.not_lt_zero j)
  | succ n ih =>
    rw [bitrev, Nat.mul_comm, Nat.testBit_two_pow_mul_add _ (bitrev_lt n (m / 2))]
    split
    · next h => rw [ih _ h, Nat.testBit_div_two]; congr 1; omega
    · next h =>
      obtain rfl : j = n := by omega
      simp [Nat.testBit_zero]

/-- Numbers of `n` bits that reverse alike are the same. -/
theorem bitrev_injOn (n : Nat) : Set.InjOn (bitrev n) {m | m < 2 ^ n} := by
  intro a ha b hb h
  refine Nat.eq_of_testBit_eq fun j => ?_
  by_cases hj : j < n
  · have hrev := congrArg (Nat.testBit · (n - 1 - j)) h
    simpa only [testBit_bitrev _ (show n - 1 - j < n by omega), show n - 1 - (n - 1 - j) = j by omega]
      using hrev
  · have hle : 2 ^ n ≤ 2 ^ j := Nat.pow_le_pow_right Nat.two_pos (Nat.le_of_not_lt hj)
    rw [Nat.testBit_lt_two_pow (lt_of_lt_of_le ha hle), Nat.testBit_lt_two_pow (lt_of_lt_of_le hb hle)]

/-- Writing the entries at different places keeps every one of them. -/
theorem getD_foldl_set {α : Type} {l : List α} {pos : Nat → Nat} {n m : Nat} (val : Nat → α) (d : α)
    (hpos : ∀ k < n, pos k < l.length) (hinj : Set.InjOn pos {k | k < n}) (hm : m < n) :
    ((List.range n).foldl (fun acc k => acc.set (pos k) (val k)) l).getD (pos m) d = val m := by
  induction n with
  | zero => exact absurd hm (Nat.not_lt_zero m)
  | succ n ih =>
    rw [List.range_succ, List.foldl_concat,
      getD_set (by rw [foldl_length _ fun _ _ => List.length_set]; exact hpos n (Nat.lt_succ_self n))]
    split
    · next h => rw [hinj hm (Nat.lt_succ_self n) h]
    · next h =>
      have hne : m ≠ n := fun e => h (congrArg pos e)
      exact ih (fun k hk => hpos k (hk.trans (Nat.lt_succ_self n)))
        (hinj.mono fun k hk => hk.trans (Nat.lt_succ_self n)) (by omega)

/-- The reordered input holds entry `m` of the input at the reversal of `m`. -/
theorem bitrevList_getD {n m : Nat} (a : List Cpx) (hm : m < 2 ^ n) :
    (bitrevList (2 ^ n) a).getD (bitrev n m) Cpx.zero = a.getD m Cpx.zero := by
  rw [bitrevList, Nat.log2_two_pow]
  exact getD_foldl_set _ _ (fun k _ => List.length_replicate.symm ▸ bitrev_lt n k) (bitrev_injOn n) hm

/-! ## The stages -/

/-- Any list of spectra that starts with the reordered input and takes one stage after another ends with
the transform. -/
theorem xfft_eq_of_stages {u : NumUnit} {tw : Nat → Cpx} {n : Nat} {a : List Cpx} {stages : Nat → List Cpx}
    (h0 : stages 0 = bitrevList (2 ^ n) a)
    (hstep : ∀ q, q < n → stages (q + 1) = fftStage u tw (2 ^ n) (2 * 2 ^ q) (stages q)) :
    xfft u tw (2 ^ n) a = stages n := by
  have hq : ∀ q ≤ n, (List.range q).foldl (fun acc q => fftStage u tw (2 ^ n) (2 ^ (q + 1)) acc)
      (bitrevList (2 ^ n) a) = stages q := by
    intro q hq
    induction q with
    | zero => exact h0.symm
    | succ q ih => rw [List.range_succ, List.foldl_concat, ih (Nat.le_of_succ_le hq), hstep q hq, pow_succ']
  rw [xfft, Nat.log2_two_pow]
  exact hq n le_rfl

/-! ## A stage's butterflies

A butterfly of half span `h` at `p` reads and writes the entries `p` and `p + h`. The butterflies of a
stage touch each entry once, so each reads the stage's input, in whatever order they run. -/

/-- The place of the butterfly that an entry belongs to: itself in the first half of its block. -/
def pairStart (h p : Nat) : Nat := if p % (2 * h) < h then p else p - h

/-- What the butterfly that an entry belongs to makes of it, with twiddle `w k` for the butterfly at `k`. -/
def pairResult (u : NumUnit) (w : Nat → Cpx) (h : Nat) (a : List Cpx) (p : Nat) : Cpx :=
  let k := pairStart h p
  let t := cmul u (w k) (a.getD (k + h) Cpx.zero)
  if p % (2 * h) < h then cadd u (a.getD k Cpx.zero) t else csub u (a.getD k Cpx.zero) t

section
variable {u : NumUnit} {w : Nat → Cpx} {h k p : Nat} {a : List Cpx}

theorem add_half_mod (hk : k % (2 * h) < h) : (k + h) % (2 * h) = k % (2 * h) + h := by
  have hh : h % (2 * h) = h := Nat.mod_eq_of_lt (by omega)
  rw [Nat.add_mod_of_add_mod_lt (by omega), hh]

theorem pairStart_of_first (hk : k % (2 * h) < h) : pairStart h k = k := if_pos hk

theorem pairStart_add_half (hk : k % (2 * h) < h) : pairStart h (k + h) = k := by
  rw [pairStart, add_half_mod hk, if_neg (by omega), Nat.add_sub_cancel]

theorem half_le_of_second (hp : ¬ p % (2 * h) < h) : h ≤ p :=
  (Nat.le_of_not_lt hp).trans (Nat.mod_le p (2 * h))

theorem pairStart_le : pairStart h p ≤ p := by
  unfold pairStart
  split <;> omega

theorem pairStart_mod_lt (hh : 1 ≤ h) : pairStart h p % (2 * h) < h := by
  unfold pairStart
  split
  · assumption
  · next hp =>
    have hlt := Nat.mod_lt p (show 0 < 2 * h by omega)
    have hdecomp := Nat.div_add_mod' p (2 * h)
    rw [show p - h = p / (2 * h) * (2 * h) + (p % (2 * h) - h) by omega,
      Nat.mul_add_mod_of_lt (by omega)]
    omega

/-- The two entries of a butterfly are those whose butterfly it is. -/
theorem pairStart_eq_iff (hk : k % (2 * h) < h) : pairStart h p = k ↔ p = k ∨ p = k + h := by
  constructor
  · rintro rfl
    by_cases hp : p % (2 * h) < h
    · exact .inl (if_pos hp).symm
    · have := half_le_of_second hp
      rw [pairStart, if_neg hp]
      omega
  · rintro (rfl | rfl)
    exacts [pairStart_of_first hk, pairStart_add_half hk]

theorem pairResult_of_first (hk : k % (2 * h) < h) : pairResult u w h a k =
    cadd u (a.getD k Cpx.zero) (cmul u (w k) (a.getD (k + h) Cpx.zero)) := by
  rw [pairResult, pairStart_of_first hk, if_pos hk]

theorem pairResult_add_half (hk : k % (2 * h) < h) : pairResult u w h a (k + h) =
    csub u (a.getD k Cpx.zero) (cmul u (w k) (a.getD (k + h) Cpx.zero)) := by
  rw [pairResult, pairStart_add_half hk, if_neg (by rw [add_half_mod hk]; omega)]

/-- Butterflies at different places of the first halves: each entry is its butterfly's result on the
input where that butterfly has run, and unchanged elsewhere. -/
theorem foldl_butterfly_getD {ks : List Nat} (hnodup : ks.Nodup)
    (hks : ∀ k ∈ ks, k % (2 * h) < h ∧ k + h < a.length) (p : Nat) :
    (ks.foldl (fun acc k => butterfly u (w k) h k acc) a).getD p Cpx.zero =
      if pairStart h p ∈ ks then pairResult u w h a p else a.getD p Cpx.zero := by
  induction ks using List.reverseRecOn generalizing p with
  | nil => simp
  | append_singleton ks k ih =>
    obtain ⟨hks, hmod, hlen⟩ := List.forall_mem_append.mp hks |>.imp_right List.forall_mem_singleton.mp
    obtain ⟨hnodup, -, hdisj⟩ := List.nodup_append.mp hnodup
    have hk : k ∉ ks := fun hmem => hdisj k hmem k (List.mem_singleton_self k) rfl
    have hran := ih hnodup hks
    have hfirst := hran k
    have hsecond := hran (k + h)
    rw [pairStart_of_first hmod, if_neg hk] at hfirst
    rw [pairStart_add_half hmod, if_neg hk] at hsecond
    rw [← foldl_length _ (fun _ _ => butterfly_length ..) ks] at hlen
    rw [List.foldl_concat, butterfly_getD u (w k) hlen, hfirst, hsecond, hran p]
    simp only [List.mem_append, List.mem_singleton]
    by_cases hp : pairStart h p = k
    · have hne : k ≠ k + h := by omega
      rw [if_pos (Or.inr hp)]
      obtain rfl | rfl := (pairStart_eq_iff hmod).mp hp
      · rw [pairResult_of_first hmod, if_neg hne, if_pos rfl]
      · rw [pairResult_add_half hmod, if_pos rfl]
    · obtain ⟨h1, h2⟩ := not_or.mp (mt (pairStart_eq_iff hmod).mpr hp)
      rw [if_neg h2, if_neg h1]
      simp only [hp, or_false]

end

/-- The places of a stage's butterflies, in the order they run: the first half of every block. -/
def stageStarts (l h : Nat) : List Nat :=
  (List.range (l / (2 * h))).flatMap fun b => (List.range h).map fun j => b * (2 * h) + j

section
variable {u : NumUnit} {tw : Nat → Cpx} {l h k : Nat} {a : List Cpx}

/-- The places of a block below the last one are places of the list. -/
theorem block_add_lt {b j : Nat} (hl : 2 * h ∣ l) (hb : b < l / (2 * h)) (hj : j < 2 * h) :
    b * (2 * h) + j < l := by
  have hle : (b + 1) * (2 * h) ≤ l / (2 * h) * (2 * h) := Nat.mul_le_mul_right _ hb
  rw [Nat.div_mul_cancel hl, Nat.add_mul] at hle
  omega

theorem mem_stageStarts (hl : 2 * h ∣ l) : k ∈ stageStarts l h ↔ k < l ∧ k % (2 * h) < h := by
  simp only [stageStarts, List.mem_flatMap, List.mem_map, List.mem_range]
  constructor
  · rintro ⟨b, hb, j, hj, rfl⟩
    refine ⟨block_add_lt hl hb (by omega), ?_⟩
    rwa [Nat.mul_add_mod_of_lt (by omega)]
  · rintro ⟨hk, hj⟩
    exact ⟨k / (2 * h), Nat.div_lt_div_of_lt_of_dvd hl hk, k % (2 * h), hj, Nat.div_add_mod' k (2 * h)⟩

theorem stageStarts_nodup (l h : Nat) : (stageStarts l h).Nodup := by
  refine List.nodup_flatMap.mpr ⟨fun b _ => List.nodup_range.map (add_right_injective _),
    List.nodup_range.imp fun {b c} hbc => List.disjoint_left.mpr ?_⟩
  simp only [List.mem_map, List.mem_range]
  rintro _ ⟨i, hi, rfl⟩ ⟨j, hj, hij⟩
  have hdiv : ∀ b j, j < h → (b * (2 * h) + j) / (2 * h) = b := fun b j hj => by
    rw [Nat.mul_comm, Nat.mul_add_div (by omega), Nat.div_eq_of_lt (by omega), Nat.add_zero]
  exact hbc (by rw [← hdiv b i hi, ← hij, hdiv c j hj])

/-- A stage of span `2h` is its butterflies, each with the twiddle of its place in its block. -/
theorem fftStage_eq_foldl_butterfly : fftStage u tw l (2 * h) a =
    (stageStarts l h).foldl
      (fun acc k => butterfly u (tw (k % (2 * h) * (l / (2 * h)))) h k acc) a := by
  rw [stageStarts, List.foldl_flatMap, fftStage, Nat.mul_div_cancel_left h Nat.two_pos]
  refine List.foldl_ext _ _ _ fun acc b _ => ?_
  rw [List.foldl_map]
  refine List.foldl_ext _ _ _ fun acc j hj => ?_
  have hj := List.mem_range.mp hj
  rw [show (b * (2 * h) + j) % (2 * h) = j from Nat.mul_add_mod_of_lt (by omega)]

/-- A stage leaves in every entry the result of the one butterfly it belongs to. -/
theorem fftStage_getD (hh : 1 ≤ h) (hl : 2 * h ∣ l) (ha : a.length = l) {p : Nat} (hp : p < l) :
    (fftStage u tw l (2 * h) a).getD p Cpx.zero =
      pairResult u (fun k => tw (k % (2 * h) * (l / (2 * h)))) h a p := by
  have hks : ∀ k ∈ stageStarts l h, k % (2 * h) < h ∧ k + h < a.length := by
    intro k hk
    obtain ⟨hkl, hmod⟩ := (mem_stageStarts hl).mp hk
    refine ⟨hmod, ha.symm ▸ ?_⟩
    have hlt := block_add_lt hl (Nat.div_lt_div_of_lt_of_dvd hl hkl)
      (show k % (2 * h) + h < 2 * h by omega)
    rwa [← Nat.add_assoc, Nat.div_add_mod'] at hlt
  have hmem : pairStart h p ∈ stageStarts l h :=
    (mem_stageStarts hl).mpr ⟨pairStart_le.trans_lt hp, pairStart_mod_lt hh⟩
  rw [fftStage_eq_foldl_butterfly, foldl_butterfly_getD (stageStarts_nodup l h) hks p, if_pos hmem]

end

/-! ## The scale of the inverse transform -/

/-- A power of two from 2^-149 to 1 is a binary32 magnitude, so dividing 1 by it rounds nothing. -/
theorem invL_two_pow {n : Nat} (hn : n ≤ 149) : ∃ m, m ≤ 0x3F800000 ∧ magOf m = 2 ^ (149 - n) ∧
    magBits (invL (2 ^ n)) = m := by
  obtain ⟨m, hm⟩ : ∃ m, magOf m = 2 ^ (149 - n) :=
    exists_magOf dvd_rfl (lt_mul_of_one_lt_left (Nat.pow_pos Nat.two_pos) (by norm_num))
  have hle : m ≤ 0x3F800000 := magOf_strictMono.le_iff_le.mp (by
    rw [hm]
    exact (Nat.pow_le_pow_right Nat.two_pos (Nat.sub_le 149 n)).trans_eq (by decide))
  have hexact : magOf m * 2 ^ n = unitScale := by
    rw [hm, ← pow_add, Nat.sub_add_cancel hn]
    rfl
  have hd : 0 < 2 ^ n := Nat.pow_pos Nat.two_pos
  exact ⟨m, hle, hm, (magBits_roundQ ..).trans
    (le_antisymm (roundMag_le hd hexact.ge) (le_roundMag hd (by omega) hexact.le))⟩

theorem isFinite_invL {n : Nat} (hn : n ≤ 149) : isFinite (invL (2 ^ n)) = true := by
  obtain ⟨m, hle, -, hbits⟩ := invL_two_pow hn
  rw [isFinite, hbits, decide_eq_true_eq]
  omega

theorem scaled_invL {n : Nat} (hn : n ≤ 149) : scaled (invL (2 ^ n)) * 2 ^ n = 2 ^ 149 := by
  obtain ⟨m, -, hm, hbits⟩ := invL_two_pow hn
  have hsign : signBit (invL (2 ^ n)) = false := signBit_roundQ ..
  rw [scaled, hsign, if_neg Bool.false_ne_true, mag_eq_magOf, hbits, hm, Nat.cast_pow, Nat.cast_ofNat,
    ← pow_add, Nat.sub_add_cancel hn]

/-- Settles O41: bit reversal, the chain of stages, one stage's butterflies, the two tables, and `1/L`. -/
theorem transformIsBitReversalAndButterflies : Obligations.TransformIsBitReversalAndButterflies := by
  refine ⟨fun n m => ⟨bitrev_lt n m, fun j => testBit_bitrev m⟩,
    fun n a => ⟨bitrevList_length _ a, fun m => bitrevList_getD a⟩,
    fun u tw n a stages => xfft_eq_of_stages, ?butterflies, fun u l a => ⟨rfl, rfl⟩,
    fun n hn => ⟨isFinite_invL (by omega), scaled_invL (by omega)⟩⟩
  intro u tw l h a x t v hh hl ha hx ht hv
  refine ⟨(fftStage_length ..).trans ha, fun p hp => (fftStage_getD hh hl ha hp).trans ?_⟩
  obtain rfl := funext hx
  obtain rfl := funext ht
  rw [hv, pairResult, pairStart]
  split <;> rfl

end Sys2Proof.Machine
end

section
/-! The envelope units (R220 to R230): the sample count of a length, the ramp of a segment from a full counter
down, and what LINE_SET, LINE_RST, LINE_ADV, ADSR_SET, ADSR_RST, ADSR_ADV, MIX and CLAMP do. -/

namespace Sys2Proof.Machine

variable {s : State} {u : NumUnit} {l : Line} {a : Adsr} {x y : B32} {m : Nat}

/-! ## The sample count of a length -/

/-- Away from the NaNs the order of R9 is total. -/
theorem fle_of_not_flt (hx : isNaN x = false) (hy : isNaN y = false) (h : ¬ flt y x = true) :
    fle x y = true := by
  simp only [flt, hx, hy, Bool.not_false, Bool.true_and, decide_eq_true_eq, not_lt] at h
  simp only [fle, hx, hy, Bool.not_false, Bool.true_and, decide_eq_true_eq, h]

theorem UpTo.truncInt_eq (hx : UpTo m x) : truncInt x = (mag x / unitScale : Nat) := by
  unfold truncInt
  split
  · next hs => rw [hx.mag_eq_zero_of_sign hs, Nat.zero_div]; rfl
  · rfl

/-- The value `0x4F7FFFFF` is the last one below 2^32. -/
theorem UpTo.truncInt_lt (hx : UpTo 0x4F7FFFFF x) : mag x / unitScale < 2 ^ 32 := by
  have hlt : magOf 0x4F7FFFFF < 2 ^ 32 * unitScale := by decide
  exact Nat.div_lt_of_lt_mul ((hx.mag_le.trans_lt hlt).trans_eq (Nat.mul_comm ..))

/-- A product with a sample count is a zero of either sign, or positive and below 2^32. -/
theorem upTo_of_hasCount (hnan : ¬ isNaN x = true) (hneg : ¬ flt x zero32 = true)
    (hbig : ¬ fle 0x4F800000#32 x = true) : UpTo 0x4F7FFFFF x := by
  have hx : UpTo 0x7F800000 x :=
    fle_zero32_iff.mp (fle_of_not_flt rfl (Bool.eq_false_iff.mpr hnan) hneg)
  have hbound : UpTo 0x7F800000 0x4F800000#32 := ⟨by decide, by decide⟩
  rw [hbound.fle_iff hx, Nat.not_le] at hbig
  exact ⟨hx.sign, Nat.le_of_lt_succ hbig⟩

/-- Settles O44: the three failures are the condition of `segLen`; a product without them truncates to a
number below 2^32, which 32 bits hold. -/
theorem segmentLengthIsTheTruncatedProduct : Obligations.SegmentLengthIsTheTruncatedProduct := by
  rintro c len n rfl
  have hmax : toB32 4294967296 = 0x4F800000#32 := by decide
  simp only [segLen, srF, hmax, Bool.or_eq_true, or_assoc]
  split
  · next h => exact ⟨iff_of_true rfl h, nofun⟩
  · next h =>
    refine ⟨iff_of_false nofun h, ?_⟩
    rintro _ ⟨⟩
    obtain ⟨hnan, hneg, hbig⟩ : _ ∧ _ ∧ _ := by simpa only [not_or] using h
    have hn := upTo_of_hasCount hnan hneg hbig
    rw [hn.truncInt_eq, BitVec.ofInt_natCast, BitVec.toNat_ofNat, Nat.mod_eq_of_lt hn.truncInt_lt]

/-! ## One advance of a segment -/

theorem doneWord_eq_ite (d : Bool) : doneWord d = if d = true then 1#32 else 0#32 := by
  cases d <;> rfl

/-- The last sample of a ramp, and every one after it: the end, with done. -/
theorem segAdv_of_le_one (h : l.rem.toNat ≤ 1) : segAdv u l = ({ l with rem := 0#32 }, l.stop, true) := by
  have hrem : (if l.rem = 0#32 then 0#32 else l.rem - 1#32) = 0#32 := by split <;> bv_omega
  simp only [segAdv, hrem, if_true]

/-- A sample before the last one: the value at the number of samples already counted down. -/
theorem segAdv_of_one_lt (h : 1 < l.rem.toNat) : segAdv u l =
    ({ l with rem := l.rem - 1#32 },
      mixValue u l.start l.stop
        (fdiv u (toB32 ((l.ntot.toNat - (l.rem.toNat - 1) : Nat) : Int)) (toB32 (l.ntot.toNat : Int))),
      false) := by
  have hzero : l.rem ≠ 0#32 := by bv_omega
  have hone : l.rem - 1#32 ≠ 0#32 := by bv_omega
  have hsub : (l.rem - 1#32).toNat = l.rem.toNat - 1 := by bv_omega
  simp only [segAdv, if_neg hzero, if_neg hone, hsub]

/-- Any number of advances count down by as many, and stop at 0. -/
theorem segAdv_iterate (u : NumUnit) (l : Line) (m : Nat) : (fun l => (segAdv u l).1)^[m] l =
    { l with rem := BitVec.ofNat 32 (l.rem.toNat - m) } := by
  induction m with
  | zero => simp
  | succ m ih =>
    have := l.rem.isLt
    rw [Function.iterate_succ_apply', ih, segAdv_line]
    simp only [BitVec.toNat_ofNat, Nat.mod_eq_of_lt (show l.rem.toNat - m < 2 ^ 32 by omega), Nat.sub_sub]

/-- Settles O47: `k - 1` advances leave `NTOT - (k - 1)` on the counter, which is at most 1 from
`k = NTOT` on. -/
theorem rampReachesItsEndAtTheLastSample : Obligations.RampReachesItsEndAtTheLastSample := by
  intro u n start stop k hk before
  have hbefore : before = ⟨n, BitVec.ofNat 32 (n.toNat - (k - 1)), start, stop⟩ := segAdv_iterate ..
  have hrem : (BitVec.ofNat 32 (n.toNat - (k - 1))).toNat = n.toNat - (k - 1) := by
    have := n.isLt
    rw [BitVec.toNat_ofNat, Nat.mod_eq_of_lt (by omega)]
  rw [hbefore]
  refine ⟨fun hlt => ?_, fun hge => ?_⟩
  · have hcount : n.toNat - (n.toNat - (k - 1) - 1) = k := by omega
    rw [segAdv_of_one_lt (by simp only [hrem]; omega)]
    simp only [hrem, hcount]
  · rw [segAdv_of_le_one (by simp only [hrem]; omega)]

/-! ## Lines -/

/-- The free counter after a length without a sample count is within the free `NTOT`. -/
theorem anyLine_rem (start stop : B32) (s : State) : (anyLine start stop s).rem.toNat =
    (Config.anyWord (s.draws + 1)).toNat % ((anyLine start stop s).ntot.toNat + 1) := by
  have hlt := Nat.mod_lt (s.anyWord 1).toNat (show 0 < (s.anyWord 0).toNat + 1 by omega)
  have := (s.anyWord 0).isLt
  exact (BitVec.toNat_ofNat ..).trans (Nat.mod_eq_of_lt (by omega))

/-- Settles O43: the index names a line, and whether its length has a sample count selects the arm. -/
theorem lineSetConfiguresAndRestarts : Obligations.LineSetConfiguresAndRestarts := by
  intro s j l len start stop hj hl
  refine ⟨fun n hn => ?_, fun hnone => ⟨_, _, rfl, anyLine_rem start stop s, ?_⟩⟩
  · simp only [exec, execLineSet, unitAt_eq_some.mpr ⟨hj, hl⟩, hn]
    rfl
  · simp only [exec, execLineSet, unitAt_eq_some.mpr ⟨hj, hl⟩, hnone]
    rfl

/-- LINE_ADV of a line that exists replies what one advance of it returns. -/
theorem execLineAdv_of_unit {j : BitVec 8} (hj : j.toNat < s.cfg.nLine) (hl : s.line[j.toNat]? = some l) :
    execLineAdv j s = reply .ok
      [(segAdv s.cfg.num l).2.1, if (segAdv s.cfg.num l).2.2 = true then 1#32 else 0#32]
      (s.setLine j.toNat (segAdv s.cfg.num l).1) := by
  simp only [execLineAdv, unitAt_eq_some.mpr ⟨hj, hl⟩, doneWord_eq_ite]

/-- Settles O45: the two clauses are the two ways one advance ends. -/
theorem lineAdvCountsDown : Obligations.LineAdvCountsDown := by
  intro s j l hj hl
  have hexec := execLineAdv_of_unit hj hl
  refine ⟨fun hlast => hexec.trans ?_, fun hmore => hexec.trans ?_⟩
  · rw [segAdv_of_le_one hlast]
    rfl
  · rw [segAdv_of_one_lt hmore]
    rfl

/-- Settles O46: the index names a line, so LINE_RST writes it. -/
theorem lineRstRestoresTheCounter : Obligations.LineRstRestoresTheCounter := by
  intro s j l hj hl
  simp only [exec, execLineRst, unitAt_eq_some.mpr ⟨hj, hl⟩]
  rfl

/-! ## ADSR units -/

/-- Settles O48: as LINE_SET, on the segment that `SEG` names. -/
theorem adsrSetConfiguresOneSegment : Obligations.AdsrSetConfiguresOneSegment := by
  intro s e a seg len start stop put he ha hput
  obtain rfl : put = a.setSegment seg := funext fun l => (hput l).trans (by cases seg <;> rfl)
  refine ⟨fun n hn => ?_, fun hnone => ⟨_, _, rfl, anyLine_rem start stop s, ?_⟩⟩
  · simp only [exec, execAdsrSet, unitAt_eq_some.mpr ⟨he, ha⟩, hn]
    rfl
  · simp only [exec, execAdsrSet, unitAt_eq_some.mpr ⟨he, ha⟩, hnone]
    rfl

/-- Settles O49: the index names an ADSR unit, so ADSR_RST writes it. -/
theorem adsrRstReturnsToAttack : Obligations.AdsrRstReturnsToAttack := by
  intro s e a he ha
  simp only [exec, execAdsrRst, unitAt_eq_some.mpr ⟨he, ha⟩]
  rfl

/-- A step of the attack without the trigger advances its segment, and is never done itself. -/
theorem adsrStep_attack (h : a.ph = .attack) : adsrStep u a false =
    (⟨(segAdv u a.atk).1, a.rel, if (segAdv u a.atk).2.2 = true then .sustain else .attack⟩,
      (segAdv u a.atk).2.1, false) := by
  simp only [adsrStep, h, Bool.false_eq_true, if_false]

theorem adsrStep_sustain (h : a.ph = .sustain) : adsrStep u a false = (a, a.atk.stop, false) := by
  simp only [adsrStep, h, Bool.false_eq_true, if_false]

theorem adsrStep_done (h : a.ph = .done) (trig : Bool) : adsrStep u a trig = (a, a.rel.stop, true) := by
  simp only [adsrStep, h]

/-- A step of the release, or one that the trigger makes the first of it, advances the release segment. -/
theorem adsrStep_release {trig : Bool}
    (h : a.ph = .release ∨ (a.ph = .attack ∨ a.ph = .sustain) ∧ trig = true) : adsrStep u a trig =
    (⟨a.atk, (segAdv u a.rel).1, if (segAdv u a.rel).2.2 = true then .done else .release⟩,
      (segAdv u a.rel).2) := by
  rcases h with h | ⟨h | h, rfl⟩
  · simp only [adsrStep, h, adsrRelease]
  · simp only [adsrStep, h, if_true, adsrRelease]
  · simp only [adsrStep, h, if_true, adsrRelease]

/-- ADSR_ADV of a unit that exists replies what one step of it returns. -/
theorem execAdsrAdv_of_unit {e : BitVec 8} (he : e.toNat < s.cfg.nAdsr) (ha : s.adsr[e.toNat]? = some a)
    (trig : Bool) : execAdsrAdv e trig s =
      reply .ok
        [(adsrStep s.cfg.num a trig).2.1, if (adsrStep s.cfg.num a trig).2.2 = true then 1#32 else 0#32]
        (s.setAdsr e.toNat (adsrStep s.cfg.num a trig).1) := by
  simp only [execAdsrAdv, unitAt_eq_some.mpr ⟨he, ha⟩, doneWord_eq_ite]

/-- Settles O50: one step of the unit in each phase, with and without the trigger. -/
theorem adsrAdvFollowsThePhases : Obligations.AdsrAdvFollowsThePhases := by
  intro s e a trig he ha
  have hexec := execAdsrAdv_of_unit he ha trig
  refine ⟨fun h htrig => hexec.trans ?attack, fun h htrig => hexec.trans ?sustain,
    fun h => hexec.trans ?release, fun h => hexec.trans ?done⟩
  case attack =>
    rw [htrig, adsrStep_attack h]
    rfl
  case sustain =>
    rw [htrig, adsrStep_sustain h]
    rfl
  case release =>
    rw [adsrStep_release h]
    rfl
  case done =>
    rw [adsrStep_done h]
    rfl

/-! ## MIX and CLAMP -/

/-- Settles O51: both commands only reply, MIX the value of `mixValue` and CLAMP that of `clampValue`. -/
theorem mixAndClampReplyTheirValues : Obligations.MixAndClampReplyTheirValues :=
  ⟨fun _ _ _ _ => rfl, fun _ _ _ _ => rfl⟩

end Sys2Proof.Machine
end

section
/-! The mixer (R260 to R263): the track entry that TRK_WR replaces, the range of the quantizer, the frame that
MIX_PERIOD writes, and the sample pair that OUT_RD packs. -/

namespace Sys2Proof.Machine

variable {s : State} {c : Config} {x y v : B32} {k q ch : Nat}

/-! ## TRK_WR and OUT_RD -/

/-- Settles O52: the indices name a track and one of its entries, which the command puts back with one channel
replaced. -/
theorem trkWrReplacesOneEntry : Obligations.TrkWrReplacesOneEntry := by
  intro s t k ch v b e ht hb hk he
  have hentry : trackEntry b k.toNat = e := by simp [trackEntry, he]
  simp only [exec, execTrkWr, unitAt_eq_some.mpr ⟨ht, hb⟩, if_pos hk, hentry]
  cases ch <;> rfl

/-- Settles O54: the word is the right sample followed by the left one. -/
theorem outRdPacksASamplePair : Obligations.OutRdPacksASamplePair := fun _ _ hk =>
  ⟨_, if_pos hk, BitVec.extractLsb'_append_eq_right, BitVec.extractLsb'_append_eq_left⟩

/-! ## The range of the quantizer -/

/-- The product is out of the quantizer's range (R261): a NaN, at most -32769.0, or at least 32768.0. -/
def OutOfRange (x : B32) : Prop :=
  isNaN x = true ∨ fle x 0xC7000100#32 = true ∨ fle 0x47000000#32 x = true

/-- Away from the NaNs the order of R9 is that of the values' places. -/
theorem fle_iff_orderKey (hx : isNaN x = false) (hy : isNaN y = false) :
    fle x y = true ↔ orderKey x ≤ orderKey y := by
  simp [fle, hx, hy]

/-- A value of smaller magnitude than an integer truncates to a smaller one. -/
theorem mag_div_lt {m n : Nat} (h : magBits x < m) (hm : magOf m = unitScale * n) :
    mag x / unitScale < n :=
  Nat.div_lt_of_lt_mul ((magOf_strictMono h).trans_eq hm)

/-- A product in the quantizer's range truncates to a 16-bit integer. -/
theorem truncInt_bounds (h : ¬ OutOfRange x) : -32768 ≤ truncInt x ∧ truncInt x < 32768 := by
  obtain ⟨hnan, hlow, hhigh⟩ : _ ∧ _ ∧ _ := by simpa only [OutOfRange, not_or] using h
  have hx : isNaN x = false := Bool.eq_false_iff.mpr hnan
  have hmin : orderKey 0xC7000100#32 = -0x47000100 := by decide
  have hmax : orderKey 0x47000000#32 = 0x47000000 := by decide
  rw [fle_iff_orderKey hx (by decide), hmin, Int.not_le] at hlow
  rw [fle_iff_orderKey (by decide) hx, hmax, Int.not_le] at hhigh
  unfold orderKey at hlow hhigh
  unfold truncInt
  split at hlow
  · next hs =>
    have hlt := mag_div_lt (x := x) (m := 0x47000100) (n := 32769) (by omega) (by decide)
    rw [if_pos hs]
    generalize mag x / unitScale = n at hlt ⊢
    omega
  · next hs =>
    rw [if_neg hs] at hhigh
    have hlt := mag_div_lt (x := x) (m := 0x47000000) (n := 32768) (by omega) (by decide)
    rw [if_neg hs]
    generalize mag x / unitScale = n at hlt ⊢
    omega

/-- The two bounds that `quant` computes are the values the rule names. -/
theorem quant_bounds : toB32 (-32769) = 0xC7000100#32 ∧ toB32 32768 = 0x47000000#32 := by
  decide

theorem quant_of_outOfRange (h : OutOfRange (fmul c.num v (toB32 c.fs))) : quant c v = none := by
  obtain ⟨hlow, hhigh⟩ := quant_bounds
  simp only [quant, hlow, hhigh, Bool.or_eq_true, or_assoc]
  exact if_pos h

theorem quant_of_inRange (h : ¬ OutOfRange (fmul c.num v (toB32 c.fs))) :
    quant c v = some (BitVec.ofInt 16 (truncInt (fmul c.num v (toB32 c.fs)))) := by
  obtain ⟨hlow, hhigh⟩ := quant_bounds
  simp only [quant, hlow, hhigh, Bool.or_eq_true, or_assoc]
  exact if_neg h

theorem quant_eq_none_iff : quant c v = none ↔ OutOfRange (fmul c.num v (toB32 c.fs)) :=
  ⟨fun h => by_contra fun hin => (nomatch (quant_of_inRange hin).symm.trans h), quant_of_outOfRange⟩

/-! ## The frame that MIX_PERIOD writes -/

/-- The scaled sum behind sample `q` of the frame, in the frame's order (R61, R262). -/
def frameProduct (c : Config) (trk : List (List Stereo)) (q : Nat) : B32 :=
  fmul c.num (mixAcc c.num trk (q / 2) (frameChannel q)) (toB32 c.fs)

/-- The channels of sample `k` of the frame stand next to each other (R61). -/
theorem frameProduct_pair {trk : List (List Stereo)} (hch : ch < 2) :
    frameProduct c trk (2 * k + ch) = fmul c.num
      (trk.foldl (fun acc b => fadd c.num acc
        (if ch = 0 then (b.getD k ⟨0#32, 0#32⟩).left else (b.getD k ⟨0#32, 0#32⟩).right)) 0#32)
      (toB32 c.fs) := by
  have hk : (2 * k + ch) / 2 = k := by omega
  have hmod : (2 * k + ch) % 2 = ch := by omega
  simp only [frameProduct, frameChannel, hk, hmod]
  obtain rfl | rfl : ch = 0 ∨ ch = 1 := by omega
  · rfl
  · rfl

/-- Some sample of the frame is free where its product is out of range. -/
theorem mixFrame_any_isNone {trk : List (List Stereo)} :
    (mixFrame c trk).any Option.isNone = true ↔
      ∃ q < 2 * c.frameLen, OutOfRange (frameProduct c trk q) := by
  simp [mixFrame, quant_eq_none_iff, frameProduct]

theorem writtenFrame_getD (hq : q < 2 * s.cfg.frameLen) : (writtenFrame s).getD q 0#16 =
    if s.poison then (s.anyWord q).setWidth 16
    else (quant s.cfg (mixAcc s.cfg.num s.trk (q / 2) (frameChannel q))).getD
      ((s.anyWord q).setWidth 16) := by
  simp [writtenFrame, mixFrame, hq]

theorem writtenFrame_getD_of_inRange (hq : q < 2 * s.cfg.frameLen) (hp : s.poison = false)
    (hin : ¬ OutOfRange (frameProduct s.cfg s.trk q)) :
    ((writtenFrame s).getD q 0#16).toInt = truncInt (frameProduct s.cfg s.trk q) := by
  obtain ⟨hlow, hhigh⟩ := truncInt_bounds hin
  rw [writtenFrame_getD hq, hp, quant_of_inRange hin]
  exact (BitVec.toInt_ofInt ..).trans (Int.bmod_eq_of_le hlow hhigh)

theorem writtenFrame_getD_of_free (hq : q < 2 * s.cfg.frameLen)
    (h : s.poison = true ∨ OutOfRange (frameProduct s.cfg s.trk q)) :
    (writtenFrame s).getD q 0#16 = (s.anyWord q).setWidth 16 := by
  rw [writtenFrame_getD hq]
  rcases h with hp | hout
  · rw [if_pos hp]
  · rw [quant_of_outOfRange hout, Option.getD_none, ite_self]

/-- The frame buffer that MIX_PERIOD leaves. -/
def writtenMemory (s : State) : Memory := Memory.fromBytes 0 ((writtenFrame s).flatMap sampleBytes)

theorem writtenMemory_read_beyond {a : Nat} (h : 4 * s.cfg.frameLen ≤ a) :
    (writtenMemory s).read a = 0#8 := by
  rw [writtenMemory, Memory.fromBytes_read_zero, List.getD_eq_default]
  rw [sampleBytes_flatMap_length, writtenFrame_length]
  omega

/-! ## The answer of MIX_PERIOD -/

/-- The outcome of MIX_PERIOD (R262). -/
def mixCode (s : State) : RespCode :=
  if (mixFrame s.cfg s.trk).any Option.isNone then .range else .ok

theorem mixCode_eq (s : State) : mixCode s = .ok ∨ mixCode s = .range := (ite_eq_or_eq ..).symm

theorem mixCode_eq_range_iff : mixCode s = .range ↔
    ∃ q < 2 * s.cfg.frameLen, OutOfRange (frameProduct s.cfg s.trk q) := by
  rw [← mixFrame_any_isNone]
  exact ite_eq_left_iff.trans (by simp)

/-- What MIX_PERIOD does. An `OK` has no STATUS bit to record. -/
theorem exec_mixPeriod (s : State) :
    exec .mixPeriod s = .next (State.respond (mixCode s) []
      { s with
        mem := writtenMemory s
        trk := List.replicate s.cfg.nTracks (silentTrack s.cfg.frameLen)
        status := s.status ||| statusBit (mixCode s)
        draws := s.draws + 2 * s.cfg.frameLen
        sinkReads := s.sinkReads.map fun r => ⟨r.addr, r.size, true⟩ }) := by
  have hok (t : Word) : t ||| statusBit .ok = t := BitVec.or_zero
  simp only [exec, execMixPeriod, mixCode, raise, reply, State.orStatus, State.skipDraws, State.setTrks,
    State.setFrame]
  split
  · rfl
  · rw [hok]
    rfl

/-- Settles O53: sample `k` of channel `ch` is the sample `2k + ch` of the frame, whose product alone decides
whether it is the truncated product or free. -/
theorem mixPeriodQuantizesAndZeroes : Obligations.MixPeriodQuantizesAndZeroes := by
  intro s p out hp hout
  have hprod {k ch : Nat} (hch : ch < 2) : p k ch = frameProduct s.cfg s.trk (2 * k + ch) :=
    (hp k ch).trans (frameProduct_pair hch).symm
  have hrange {k ch : Nat} (hch : ch < 2) :
      out k ch ↔ OutOfRange (frameProduct s.cfg s.trk (2 * k + ch)) :=
    hprod hch ▸ hout k ch
  refine ⟨writtenMemory s, mixCode s, exec_mixPeriod s, mixCode_eq s, mixCode_eq_range_iff.trans ?code,
    (writtenFrame_memory s).1, fun a => writtenMemory_read_beyond, fun k ch hk hch => ?samples⟩
  case code =>
    constructor
    · rintro ⟨q, hq, h⟩
      refine ⟨q / 2, q % 2, by omega, by omega, (hrange (by omega)).mpr ?_⟩
      rwa [Nat.div_add_mod]
    · rintro ⟨k, ch, hk, hch, h⟩
      exact ⟨2 * k + ch, by omega, (hrange hch).mp h⟩
  case samples =>
    have hq : 2 * k + ch < 2 * s.cfg.frameLen := by omega
    rw [writtenMemory, Memory.fromBytes_sample, hprod hch, hrange hch]
    exact ⟨writtenFrame_getD_of_inRange hq, writtenFrame_getD_of_free hq⟩

end Sys2Proof.Machine
end

section
/-! CSR_WR (R281): a write of 1 to STATUS clears its bit, and every other write is ILLEGAL. -/

namespace Sys2Proof.Machine

/-- The writable bits of STATUS are bits 0 to 4 (R41). -/
theorem statusMask_getLsbD (j : Nat) : statusMask.getLsbD j = decide (j < 5) := by
  have hmask : statusMask = (BitVec.allOnes 5).setWidth 32 := by decide
  rw [hmask, BitVec.getLsbD_setWidth, BitVec.getLsbD_allOnes, ← Bool.decide_and, decide_eq_decide]
  omega

theorem clearStatus_getLsbD (s : State) (v : Word) (j : Nat) : (s.clearStatus v).status.getLsbD j =
    (s.status.getLsbD j && !(decide (j < 5) && v.getLsbD j)) := by
  rw [State.clearStatus_status, BitVec.getLsbD_and, BitVec.getLsbD_not, BitVec.getLsbD_and,
    statusMask_getLsbD, ← Bool.and_assoc, Bool.and_comm (v.getLsbD j)]
  congr 1
  exact Bool.and_eq_left_iff_imp.mpr fun h => decide_eq_true (BitVec.lt_of_getLsbD h)

/-- Settles O59: the write clears through the mask of STATUS, any other write fails step 4 of R85, and a
wrong `LEN` is not that of the row of CSR_WR. -/
theorem csrWrClearsStatusBits : Obligations.CsrWrClearsStatusBits := by
  refine fun s v => ⟨(s.clearStatus v).status, rfl, clearStatus_getLsbD s v,
    fun a n h => ?otherWrite, fun w0 ops hopc hlen => ?wrongLength⟩
  case otherWrite =>
    exact exec_of_not_wellFormed (wellFormed_csrWr.not.mpr (not_and_or.mpr h))
  case wrongLength =>
    have hr : opRow (fieldOpc w0) = some ⟨0x71#8, 1#4, false, 0xFFF#12, 0⟩ := by rw [hopc]; rfl
    exact wrongLengthOrReservedBitIsIllegal s w0 ops _ hr (.inl hlen)

end Sys2Proof.Machine
end

section
/-! Errors (R301 to R303): the STATUS bit of a command's outcome, what can clear it, and that an error leaves
all else as it was. -/

namespace Sys2Proof.Machine

variable {s t w : State}

/-! ## STATUS -/

/-- The answer of a command has one response, whose STATUS bit it sets (R302). -/
theorem State.Answers.status (h : s.Answers t) :
    ∃ r : Response, t.responses = s.responses ++ [r] ∧ t.status = s.status ||| statusBit r.code := by
  obtain ⟨w, code, data, hw, rfl⟩ := h
  exact ⟨⟨code, w.replyData data⟩, by rw [hw.frame]; rfl, by rw [hw.frame]; rfl⟩

/-- Settles O18: an answer sets the bit of its code, and only an accepted CSR_WR clears bits before it. -/
theorem statusBitsFollowTheOutcome : Obligations.StatusBitsFollowTheOutcome := by
  intro i s t e hi
  obtain h | ⟨a, v, rfl, ha, -⟩ := exec_answers e
  · obtain ⟨⟨code, data⟩, hr, hs⟩ := h.status
    refine ⟨⟨code, data⟩, hr, hs.trans ?_⟩
    cases code <;> rfl
  · obtain rfl := csrOf_eq_status_iff.mp ha
    exact absurd rfl (hi v)

theorem State.Answers.status_sticky (h : s.Answers t) {j : Nat} (hj : s.status.getLsbD j = true) :
    t.status.getLsbD j = true := by
  obtain ⟨r, -, hs⟩ := h.status
  rw [hs, BitVec.getLsbD_or, hj, Bool.true_or]

/-- The bits that an accepted CSR_WR clears are written 1, and are bits of STATUS (R281). -/
theorem written_of_clearStatus_answered {v : Word} {j : Nat} (hj : s.status.getLsbD j = true)
    (h : ((s.clearStatus v).answered .ok []).status.getLsbD j = false) :
    v.getLsbD j = true ∧ j < 5 := by
  have hstatus : ((s.clearStatus v).answered .ok []).status = (s.clearStatus v).status := BitVec.or_zero
  rw [hstatus, clearStatus_getLsbD, hj] at h
  simpa [and_comm] using h

theorem encode_csrWr_status (v : Word) : encode (.csrWr 0x000#12 0#8 v) = [0x10000071#32, v] := by
  have hw0 : packW0 1#4 0x000#12 0#8 0x71#8 = 0x10000071#32 := by decide
  exact congrArg (· :: [v]) hw0

/-- Settles O19: of the commands a step can run only an accepted CSR_WR clears a bit, and its words are those
that encode it. -/
theorem statusBitsAreSticky : Obligations.StatusBitsAreSticky := by
  intro s t j e hj ht
  obtain ⟨-, w0, ops, rest, hf, e⟩ := step_eq_next.mp e
  have sticky (h : (s.consume rest).Answers t) : False := by
    cases (h.status_sticky hj).symm.trans ht
  obtain ⟨i, hd, e⟩ | ⟨-, h⟩ := runCommand_cases e
  · obtain h | ⟨a, v, rfl, ha, rfl⟩ := exec_answers e
    · exact (sticky h).elim
    · obtain rfl := csrOf_eq_status_iff.mp ha
      have hwords := (encode_csrWr_status v).symm.trans (encodeOfDecodeIsTheWords w0 ops _ hd)
      have hstream : s.stream = [0x10000071#32, v] ++ rest := by
        rw [hwords]; exact (frame_eq_command hf).1
      exact ⟨v, rest, hstream, written_of_clearStatus_answered hj ht⟩
  · exact (sticky h).elim

/-! ## What an error leaves unchanged -/

/-- The outcomes that reject a command (R303). -/
def RespCode.rejects : RespCode → Bool
  | .exhausted | .badHandle | .illegal => true
  | .ok | .precond | .range => false

/-- The states a command that started in `s` can end in: it raises an error in `s` itself, or it answers with
an outcome that does not reject it. -/
inductive State.Ends (s : State) : State → Prop
  | error (c : RespCode) (d : List Word) : State.Ends s ((s.orStatus (statusBit c)).respond c d)
  | accepted {t : State} {r : Response} (ht : t.responses = s.responses ++ [r])
      (hr : r.code.rejects = false) : State.Ends s t

namespace State.Ends

theorem of_error {c : RespCode} {d : List Word} (e : raise c d s = .next t) : s.Ends t :=
  raise_eq_next.mp e ▸ .error c d

theorem of_reply {c : RespCode} {d : List Word} (e : reply c d w = .next t) (hc : c.rejects = false)
    (hw : w.responses = s.responses) : s.Ends t :=
  .accepted (r := ⟨c, w.replyData d⟩) (by rw [reply_eq_next.mp e, State.respond_responses, hw]) hc

theorem of_ok {d : List Word} (e : reply .ok d w = .next t) (hw : w.responses = s.responses) : s.Ends t :=
  of_reply e rfl hw

theorem of_precond {d : List Word} (e : replyPrecond d w = .next t) (hw : w.responses = s.responses) :
    s.Ends t :=
  .accepted (r := ⟨.precond, w.replyData d⟩)
    (by rw [replyPrecond_eq_next.mp e, State.flagPrecond_responses, State.respond_responses, hw]) rfl

end State.Ends

open State.Ends

theorem execGenReg_ends {type : BitVec 2} {freq : B32} (e : execGenReg type freq s = .next t) :
    s.Ends t := by
  unfold execGenReg at e
  split at e
  · exact of_error e
  · split at e
    · exact of_error e
    · split at e
      · exact of_ok e rfl
      · exact of_precond e rfl

theorem execTrkWr_ends {n : BitVec 8} {k : BitVec 11} {ch : Channel} {v : B32}
    (e : execTrkWr n k ch v s = .next t) : s.Ends t := by
  unfold execTrkWr at e
  split at e
  · exact of_error e
  · split at e
    · exact of_ok e rfl
    · exact of_error e

/-- An out-of-range sample is no rejection: the frame is written all the same (R262). -/
theorem execMixPeriod_ends (e : execMixPeriod s = .next t) : s.Ends t := by
  unfold execMixPeriod at e
  simp only at e
  split at e
  · exact of_reply e rfl (by simp)
  · exact of_ok e (by simp)

theorem execOutRd_ends {k : BitVec 11} (e : execOutRd k s = .next t) : s.Ends t := by
  unfold execOutRd at e
  split at e
  · exact of_ok e rfl
  · exact of_error e

theorem execCsrRd_ends {a : BitVec 12} {n : BitVec 8} (e : execCsrRd a n s = .next t) : s.Ends t := by
  unfold execCsrRd at e
  split at e
  · exact of_error e
  · split at e
    · exact of_error e
    · split at e
      · exact of_error e
      · exact of_ok e rfl

theorem execCsrWr_ends {a : BitVec 12} {n : BitVec 8} {v : Word} (e : execCsrWr a n v s = .next t) :
    s.Ends t := by
  unfold execCsrWr at e
  split at e
  · exact of_ok (w := s.clearStatus v) e rfl
  · exact of_error e

/-- Every command checks before it writes: it raises its error in the state it started in. -/
theorem exec_ends {i : Instr} (e : exec i s = .next t) : s.Ends t := by
  cases i with
  | genReg => exact execGenReg_ends e
  | trkWr => exact execTrkWr_ends e
  | mixPeriod => exact execMixPeriod_ends e
  | outRd => exact execOutRd_ends e
  | csrRd => exact execCsrRd_ends e
  | csrWr => exact execCsrWr_ends e
  | genAdv | mix | clamp => exact of_ok e rfl
  | genRel | genRd | rvbCfg | rvbApply | fftIn | fftOut | lineRst | lineAdv | adsrRst | adsrAdv =>
    simp only [exec, execGenRel, execGenRd, execRvbCfg, execRvbApply, execFftIn, execFftOut, execLineRst,
      execLineAdv, execAdsrRst, execAdsrAdv] at e
    split at e
    · exact of_error e
    · exact of_ok e rfl
  | dlyApply | fftShift | lineSet | adsrSet =>
    simp only [exec, execDlyApply, execFftShift, execLineSet, execAdsrSet] at e
    split at e
    · exact of_error e
    · split at e
      · exact of_ok e rfl
      · exact of_precond e rfl

/-- Settles O20: a command that is rejected raised its error in the state it started in. -/
theorem errorsChangeOnlyTheirStatusBit : Obligations.ErrorsChangeOnlyTheirStatusBit := by
  intro i s t r e hr hcode
  cases exec_ends e with
  | error c d =>
    obtain rfl : (⟨c, (s.orStatus (statusBit c)).replyData d⟩ : Response) = r := by
      simpa [State.respond_responses] using hr
    exact ⟨rfl, rfl⟩
  | accepted ht hacc =>
    obtain rfl : _ = r := by simpa using ht.symm.trans hr
    rcases hcode with h | h | h <;> rw [h] at hacc <;> cases hacc

end Sys2Proof.Machine
end

section
/-! What the step runs: the command that the words at the front of the stream decode to (R85, R300). -/

namespace Sys2Proof.Machine

theorem runCommand_of_ok {s : State} {w0 : Word} {ops : List Word} {i : Instr} (h : decode w0 ops = .ok i) :
    runCommand w0 ops s = exec i s := by
  simp only [runCommand, h]

/-- Settles O10: the words are a whole command, which the step takes and runs. -/
theorem stepRunsTheDecodedCommand : Obligations.StepRunsTheDecodedCommand := by
  intro s w0 ops rest i hc hs hl hd
  rw [step_of_command hc hs hl, runCommand_of_ok hd]
  rfl

end Sys2Proof.Machine
end

section
/-! Indices out of their bound, and Free handles (R301). -/

namespace Sys2Proof.Machine

variable {s : State} {n : BitVec 8}

/-- A handle out of its bound or of a Free slot names no live slot. -/
theorem liveGen_eq_none
    (h : s.cfg.genCap ≤ n.toNat ∨ ∃ g, s.gen[n.toNat]? = some g ∧ g.kind = .free) :
    s.liveGen n = none := by
  refine Option.eq_none_iff_forall_ne_some.mpr fun g hg => ?_
  obtain ⟨hcap, hgen, hlive⟩ := liveGen_eq_some.mp hg
  obtain h | ⟨g', hg', hfree⟩ := h
  · omega
  · obtain rfl := Option.some.inj (hgen.symm.trans hg')
    exact hlive hfree

/-- A register of a unit has no value at an index that the unit does not have (R50). -/
theorem csrValue_eq_none {r : Csr} {u : CsrUnit} (hu : r.unit = some u) (h : csrCount s.cfg u ≤ n.toNat) :
    csrValue r n s = none := by
  have noUnit {α : Type} {count : Nat} {us : List α} (h : count ≤ n.toNat) (f : α → Word) :
      (unitAt count us n).map f = none := by rw [unitAt_of_le h]; rfl
  cases r with
  | status | srate | gencap | ntracks | framelen | units | fftn | fscale => cases hu
  | _ => cases hu; exact noUnit h _

theorem execTrkWr_of_bad_index {k : BitVec 11} (h : s.cfg.nTracks ≤ n.toNat ∨ s.cfg.frameLen ≤ k.toNat)
    (ch : Channel) (v : B32) : execTrkWr n k ch v s = raiseBadHandle 0 s := by
  unfold execTrkWr
  cases ht : unitAt s.cfg.nTracks s.trk n with
  | none => rfl
  | some b =>
    have hn : n.toNat < s.cfg.nTracks := (unitAt_eq_some.mp ht).1
    exact if_neg (by omega)

theorem execCsrRd_of_bad_index {a : BitVec 12} {r : Csr} {u : CsrUnit} (ha : csrOf a = some r)
    (hu : r.unit = some u) (h : csrCount s.cfg u ≤ n.toNat) : execCsrRd a n s = raiseBadHandle 1 s := by
  simp [execCsrRd, ha, hu, csrValue_eq_none hu h]

/-- Settles O25: the index names no unit, which is the first thing each command looks at. -/
theorem indexOutOfRangeAnswersBadHandle : Obligations.IndexOutOfRangeAnswersBadHandle := by
  intro s n bad
  refine ⟨fun h => ?gen, fun h x d fb => ?dly, fun h => ?rvb, fun h => ?fft, fun h => ?line,
    fun h => ?adsr, fun k h ch v => execTrkWr_of_bad_index h ch v,
    fun k h => if_neg (Nat.not_lt.mpr h), fun a r u ha hu h => execCsrRd_of_bad_index ha hu h⟩
  case gen =>
    simp only [exec, execGenRel, execGenRd, liveGen_eq_none h]
    exact ⟨rfl, rfl⟩
  case dly =>
    simp only [exec, execDlyApply, unitAt_of_le h]
    rfl
  case rvb =>
    simp only [exec, execRvbCfg, execRvbApply, unitAt_of_le h]
    exact ⟨fun _ _ _ _ _ => rfl, fun _ => rfl⟩
  case fft =>
    simp only [exec, execFftIn, execFftOut, execFftShift, unitAt_of_le h]
    exact ⟨fun _ => rfl, rfl, fun _ => rfl⟩
  case line =>
    simp only [exec, execLineSet, execLineRst, execLineAdv, unitAt_of_le h]
    exact ⟨fun _ _ _ => rfl, rfl, rfl⟩
  case adsr =>
    simp only [exec, execAdsrSet, execAdsrRst, execAdsrAdv, unitAt_of_le h]
    exact ⟨fun _ _ _ _ => rfl, rfl, fun _ => rfl⟩

end Sys2Proof.Machine
end

section
/-! Reset (R340 to R342): the value of every piece of state, and the invariant. -/

namespace Sys2Proof.Machine

/-! ## The reset state -/

theorem resetWith_dly_eq_some {c : Config} {i cap : Nat} (h : c.dlyCap[i]? = some cap) :
    (State.resetWith c).dly[i]? = some (Delay.reset cap) := by
  simp [State.resetWith, h]

theorem Memory.sample_nil (k c : Nat) : Memory.sample [] k c = 0#16 := by
  have hbytes : 0#8 ++ 0#8 = 0#16 := by decide
  exact hbytes

/-- Settles O1: each unit's array repeats its reset value, and no byte of the frame buffer is listed. -/
theorem resetLeavesEveryValue : Obligations.ResetLeavesEveryValue := by
  intro c
  refine ⟨rfl, rfl, rfl, rfl, rfl, rfl, List.length_replicate, fun g hg => ?gen, List.length_map _,
    fun i cap h => resetWith_dly_eq_some h, List.length_replicate, fun r hr => ?rvb,
    List.length_replicate, fun f hf => ?fft, rfl, rfl, rfl, Memory.sample_nil⟩
  case gen =>
    obtain rfl := List.eq_of_mem_replicate hg
    exact ⟨rfl, rfl, rfl, rfl⟩
  case rvb =>
    obtain rfl := List.eq_of_mem_replicate hr
    exact ⟨fun k => ⟨Vector.getElem_replicate _, Vector.getElem_replicate _⟩, rfl, rfl, rfl, rfl⟩
  case fft =>
    obtain rfl := List.eq_of_mem_replicate hf
    exact ⟨rfl, rfl, rfl, rfl, rfl, rfl, rfl, rfl, rfl, rfl⟩

/-! ## The invariant -/

theorem Delay.reset_fits {cap : Nat} (h : 1 ≤ cap) : (Delay.reset cap).Fits cap :=
  ⟨List.length_replicate, h⟩

theorem Spectral.reset_fits {n : Nat} (h : 1 ≤ n) : (Spectral.reset n).Fits n where
  curLength := List.length_replicate
  ovlLength := List.length_replicate
  workLength := List.length_replicate
  persLength := List.length_replicate
  olaOutLength := List.length_replicate
  olaTailLength := List.length_replicate
  sidxBound := h
  oidxBound := Nat.le_refl n

/-- A frame size is at least one sample, as it is a power of two (R5). -/
theorem one_le_fftN {c : Config} (h : cfgValid c = true) : 1 ≤ c.fftN := by
  obtain ⟨-, -, -, -, -, -, -, -, ⟨k, hk⟩, -⟩ := (cfgValid_iff c).mp h
  exact hk ▸ Nat.one_le_two_pow

theorem resetWith_inv {c : Config} (hc : cfgValid c = true) : (State.resetWith c).Inv where
  cfg := hc
  genLength := List.length_replicate
  genFree g hg _ := List.eq_of_mem_replicate hg
  dlyLength := List.length_map _
  dlyFits i d cap hd hcap := by
    obtain rfl := Option.some.inj ((resetWith_dly_eq_some hcap).symm.trans hd)
    exact Delay.reset_fits (one_le_dlyCap hc hcap)
  rvbLength := List.length_replicate
  fftLength := List.length_replicate
  fftFits f hf := List.eq_of_mem_replicate hf ▸ Spectral.reset_fits (one_le_fftN hc)
  lineLength := List.length_replicate
  lineFits l hl := List.eq_of_mem_replicate hl ▸ lineRestart_fits Line.reset
  adsrLength := List.length_replicate
  adsrFits a ha :=
    List.eq_of_mem_replicate ha ▸ ⟨lineRestart_fits Line.reset, lineRestart_fits Line.reset⟩
  trkLength := List.length_replicate
  trkFits b hb := List.eq_of_mem_replicate hb ▸ List.length_replicate
  memWf := ⟨.nil, nofun⟩
  memInside := nofun
  statusReserved := BitVec.zero_and

theorem resetWith_safe {c : Config} (hc : cfgValid c = true) : (State.resetWith c).Safe :=
  ⟨resetWith_inv hc, rfl⟩

/-- Settles O3: every reset value is within its bound, and CFG-A is a legal configuration. -/
theorem resetMeetsTheInvariant : Obligations.ResetMeetsTheInvariant :=
  ⟨fun _ => resetWith_safe, resetWith_safe (by decide)⟩

/-! ## Asserting reset -/

/-- The invariant does not speak of the model's own records, in which asserting reset differs from reset. -/
theorem assertReset_safe {s : State} (hc : cfgValid s.cfg = true) : s.assertReset.Safe :=
  ⟨{ resetWith_inv hc with }, rfl⟩

/-- Settles O2: only the draws and the outstanding sink reads, all marked as overlapped, outlive the reset. -/
theorem assertResetRestoresEveryValue : Obligations.AssertResetRestoresEveryValue := by
  refine fun s => ⟨rfl, rfl, List.length_map _, fun r hr => ?_, assertReset_safe⟩
  obtain ⟨_, -, rfl⟩ := List.mem_map.mp hr
  rfl

end Sys2Proof.Machine
end
